-- ==== Sys2Proof/Word.lean ====
section
/-! DEFINITION. The words of the cycle link (R1, section 10.6) and the index types of the part's tables.

Positions, steps, loads and the fields of the tables are integers of the manual (section 5.1: "All quantities in the 6128 are
integers"), and its arithmetic is exact (section 5.3), so they are `Int`; only what crosses the link as bits is a bit vector. -/

namespace Sys2Proof

/-- A byte of a frame. -/
abbrev Byte := BitVec 8

/-- A 16-bit field of a frame: sequence numbers wrap from 65535 to 0 (section 5.4). -/
abbrev Word16 := BitVec 16

/-- A 32-bit field of a frame. -/
abbrev Word32 := BitVec 32

/-- An axis number, 0 to 127 (section 5.5). -/
abbrev Axis := Fin 128

/-- An index of the pair table, 0 to 511 (R65). -/
abbrev PairIndex := Fin 512

/-- The number of an interlock input line, 0 to 15 (R84). -/
abbrev Line := Fin 16

/-- The level of an interlock input (R84). -/
inductive Level where
  | low
  | high
  deriving DecidableEq, Repr

/-- The two link ports: the C-port faces the console, the D-port the drive line (R150). -/
inductive Port where
  | console
  | drive
  deriving DecidableEq, Repr

end Sys2Proof
end

