-- ==== Sys2Proof/Config.lean ====
section
/-! DEFINITION. The sizes that the manual fixes for the part, the model's unit of time, and the one pin level that the manual
leaves to the part's surroundings. The manual leaves no RESULT of a step open (log entry 4); it leaves open which of two blocks
judges first, and that is the one free value here (log entry 29). -/

namespace Sys2Proof.Config

/-- Clock ticks in 1 ms: the model counts time in periods of the 25 MHz clock input (section 4 of the introduction).
DESIGN CHOICE, log entry 1. -/
def ticksPerMs : Nat := 25000

/-- Clock ticks in 0.5 ms, the unit of the period and the grace (R140, R171). -/
def ticksPerHalfMs : Nat := 12500

/-- The level of every interlock pin in `State.reset`. The raw level follows the pin (R84), and the manual gives no pin a
level: DESIGN CHOICE, unsafe, log entry 3. -/
def resetLevel : Level := .low

/-- Events that the event queue holds at most (R178). -/
def eventRoom : Nat := 32

/-- Answers and unanswered requests that the request handler holds at most (R161). -/
def answerRoom : Nat := 16

/-- Answers and events in one report frame at most (R180). -/
def reportRoom : Nat := 12

/-- Forwarded frames that wait in the upstream emitter at most (R158). -/
def forwardRoom : Nat := 2

/-- Foreign manage frames that wait in the downstream emitter at most (R156). -/
def manageRoom : Nat := 2

/-- Loads kept in a load ring at most (R128). -/
def ringRoom : Nat := 8

/-- Samples that complete a tare (R134). -/
def tareSamples : Nat := 16

/-- Whether the two blocks that take faults judged an axis before either change reached the axis context store, at the n-th time
that this decides anything (R31). FREE VALUE, log entry 29: the manual gives both outcomes and does not say which one happens. -/
opaque judgedTogether : Nat → Bool

end Sys2Proof.Config
end

