-- ==== Sys2Proof/Syntax.lean ====
section
/-! DEFINITION. The frames that reach the part's ports, as the records that their layouts (R151, sections 10.6 to 10.8) spell,
and `Instr`: the part's steps, one constructor per row of spec/opcode_table.json.

Two kinds of step carry no frame. A step of one of the part's own engines (SCREEN_CONSOLE_RECORD, OUTSTANDING_APPEND,
FEEDBACK_RECORD ...) works on the frame that the engine holds in the state. A management request (MODE, PUT_AXIS ...) is
carried out from the request handler's accepted frames (R162): its tag and its operands stand in the envelope held there.
A `moment` is a time in clock ticks since the last power-on reset, at which the step is taken (log entry 1). -/

namespace Sys2Proof

/-- A console setpoint record, 6 bytes (section 10.7). `flags` is not judged. -/
structure ConsoleRecord where
  axis : Byte
  flags : Byte
  position : Word32
  deriving DecidableEq, Repr

/-- A feedback record, 12 bytes (R111, section 10.7). The last byte is not read. -/
structure FeedbackRecord where
  axis : Byte
  status : Byte
  ack : Word16
  actual : Word32
  rawLoad : Word16
  code : Byte
  spare : Byte
  deriving DecidableEq, Repr

/-- A request envelope of a manage frame (section 10.8). -/
structure Envelope where
  tag : Word16
  kind : Byte
  body : List Byte
  deriving DecidableEq, Repr

/-- The header fields of a received frame that its contents do not determine (section 10.6): the kind, the record count and
the body length follow from the frame itself, and the check value from its bytes. -/
structure Header where
  dest : Byte
  source : Byte
  flags : Byte
  seq : Word16
  deriving DecidableEq, Repr

/-- A setpoint frame received at the C-port. -/
structure SetpointFrame where
  hdr : Header
  records : List ConsoleRecord
  deriving DecidableEq, Repr

/-- A feedback frame. -/
structure FeedbackFrame where
  hdr : Header
  records : List FeedbackRecord
  deriving DecidableEq, Repr

/-- A manage frame. -/
structure ManageFrame where
  hdr : Header
  requests : List Envelope
  deriving DecidableEq, Repr

/-- A report frame built by a drive. The part carries it and reads nothing in it (R154), so its body stays as bytes. -/
structure DriveReport where
  hdr : Header
  count : Word16
  body : List Byte
  deriving DecidableEq, Repr

/-- A frame that has passed the link check and the form check of its port (R150), by its kind. -/
inductive Frame where
  | setpoint (f : SetpointFrame)
  | feedback (f : FeedbackFrame)
  | manage (f : ManageFrame)
  | report (f : DriveReport)
  deriving DecidableEq, Repr

/-- The steps of the part, one constructor per row of spec/opcode_table.json. -/
inductive Instr where
  /-- POWER_ON_RESET (R41): the reset input. -/
  | powerOnReset
  /-- CORRUPT_FRAME (R150): the last bytes of a frame have arrived at a port and the two checks are applied to it. -/
  | corruptFrame (port : Port) (bytes : List Byte)
  /-- ROUTER_DISCARD (R153, R154): a frame whose kind or destination the router does not hand on. -/
  | routerDiscard (port : Port) (frame : Frame)
  /-- CONSOLE_SETPOINT_FRAME (R142): a setpoint frame arrives at the C-port at `moment`. -/
  | consoleSetpointFrame (moment : Nat) (frame : SetpointFrame)
  /-- DEADLINE_EXPIRY (R147). -/
  | deadlineExpiry
  /-- SCREEN_CONSOLE_RECORD (R43): the engine takes the next record of the frame in hand. -/
  | screenConsoleRecord
  /-- SCREEN_UNNAMED_AXIS (R44): in the second phase the engine reaches `axis`. -/
  | screenUnnamedAxis (axis : Axis)
  /-- OUTSTANDING_APPEND (R115): the engine places the next record in the downstream frame. -/
  | outstandingAppend
  /-- EMISSION (R146), at `moment`. -/
  | emission (moment : Nat)
  /-- FEEDBACK_FRAME (R154): a feedback frame arrives at the D-port. -/
  | feedbackFrame (frame : FeedbackFrame)
  /-- DRIVE_REPORT_FRAME (R154): a report frame arrives at the D-port. -/
  | driveReportFrame (frame : DriveReport)
  /-- FEEDBACK_RECORD (R117): the feedback monitor takes the next record of the frame in hand. -/
  | feedbackRecord
  /-- INTERLOCK_RAW_CHANGE (R85): the raw level of an input becomes `level` at `moment`. -/
  | interlockRawChange (moment : Nat) (line : Line) (level : Level)
  /-- INTERLOCK_SETTLE (R85): the held time of a line's pending level reaches its settle time. -/
  | interlockSettle (line : Line)
  /-- REPORT_TIMER_EXPIRY (R179). -/
  | reportTimerExpiry
  /-- D_PORT_SEND_DONE (R157): the last byte of the frame on the D-port transmitter has left. -/
  | dPortSendDone
  /-- C_PORT_SEND_DONE (R158): the last byte of the frame on the C-port transmitter has left. -/
  | cPortSendDone
  /-- MANAGE_FRAME (R161): a manage frame for the part arrives at the C-port at `moment`. -/
  | manageFrame (moment : Nat) (frame : ManageFrame)
  /-- FOREIGN_MANAGE_FRAME (R155): a manage frame for another node arrives at the C-port. -/
  | foreignManageFrame (frame : ManageFrame)
  /-- MODE (R165), request kind 1. -/
  | mode
  /-- GET_ENTRY (R170), request kind 2. -/
  | getEntry
  /-- GET_AXIS (R38), request kind 3. -/
  | getAxis
  /-- GET_SETTINGS (R170), request kind 4. -/
  | getSettings
  /-- SET_MASK (R176), request kind 5. -/
  | setMask
  /-- HALT_AXES (R108), request kind 6. -/
  | haltAxes
  /-- CLEAR_FAULT (R32), request kind 7. -/
  | clearFault
  /-- RESTART (R173), request kind 8. -/
  | restart
  /-- PUT_PAIR (R69), request kind 9. -/
  | putPair
  /-- PUT_INTERLOCK (R92), request kind 10. -/
  | putInterlock
  /-- PUT_AXIS (R14), request kind 11. -/
  | putAxis
  /-- ERASE_ENTRY (R17, R70, R93), request kind 12. -/
  | eraseEntry
  /-- PUT_SETTINGS (R172), request kind 13. -/
  | putSettings
  /-- LOCK_ENTRY (R169), request kind 14. -/
  | lockEntry
  /-- UNLOCK_ENTRY (R169), request kind 15. -/
  | unlockEntry
  /-- TARE (R133), request kind 16. -/
  | tare
  /-- UNTARE (R138), request kind 17. -/
  | untare
  /-- STAGE_CUE (R102), request kind 18. -/
  | stageCue
  /-- TAKE_CUE (R104), request kind 19. -/
  | takeCue
  /-- DROP_CUE (R107), request kind 20. -/
  | dropCue
  /-- UNKNOWN_REQUEST (R160): a request of any other kind. -/
  | unknownRequest
  deriving DecidableEq, Repr

end Sys2Proof
end

