-- ==== Sys2Proof/Decode.lean ====
section
/-! DEFINITION. Decoding of a table word. The table of this block gives its rows no bits: no word spells a command. -/

namespace Sys2Proof

/-- The command that a word spells by the bits of spec/opcode_table.json: none, for no row of it gives bits. -/
def decodeTableWord (_nbits _w : Nat) : Option Instr := none

end Sys2Proof
end

