-- ==== Sys2Proof/Machine/State.lean ====
section
/-! DEFINITION. The state of the part: every piece of state that INVENTORY.md lists, block by block (section 2.2 of the
introduction), as plain data, and `State.reset`. -/

namespace Sys2Proof.Machine

/-! ## Modes, results and names -/

/-- The operating mode (R164). -/
inductive Mode where
  | start
  | commission
  | inShow
  deriving DecidableEq, Repr

/-- The result codes of the answers (section 10.8, section 11.8). -/
inductive Result where
  | accepted
  | wrongMode
  | isProtected
  | badField
  | badIndex
  | duplicatePair
  | axisMoving
  | outOfLimits
  | notPositioned
  | notConfigured
  | axisFaulted
  | notFaulted
  | notParked
  | pendingFull
  | nothingPending
  | busy
  | noLoadCell
  | unknownRequest
  deriving DecidableEq, Repr

/-- A table named by a table code (section 10.8). -/
inductive TableCode where
  | axisTable
  | pairTable
  | lineTable
  deriving DecidableEq, Repr

/-! ## The table store -/

/-- The load section of an axis record, fields 11 to 16 (R7). -/
structure LoadSection where
  gain : Int
  tareOffset : Int
  overload : Int
  slack : Int
  snagBand : Int
  filterLen : Nat
  deriving DecidableEq, Repr

/-- The body of an axis record, fields 1 to 10 and the optional load section (section 1.2). -/
structure AxisBody where
  lower : Int
  upper : Int
  vmax : Int
  amax : Int
  sdec : Int
  hang : Int
  crown : Int
  followTol : Int
  captureWin : Int
  trackWin : Int
  load : Option LoadSection
  deriving DecidableEq, Repr

/-- An entry of the axis table (R2). The present flag is set when there is a body: an absent entry's body has no value. -/
structure AxisEntry where
  body : Option AxisBody
  locked : Bool
  deriving DecidableEq, Repr

/-- The body of a pair entry (R65). -/
structure PairBody where
  upper : Axis
  lower : Axis
  gap : Int
  warn : Int
  deriving DecidableEq, Repr

/-- An entry of the pair table (R65). -/
structure PairEntry where
  body : Option PairBody
  locked : Bool
  warning : Bool
  deriving DecidableEq, Repr

/-- The action of an interlock entry; only SLOW holds a speed_cap (R89, R92). -/
inductive Action where
  | halt
  | slow (cap : Int)
  | noDown
  | noUp
  deriving DecidableEq, Repr

/-- A set of axes: ALL, or a list in ascending order without repeats (R89, R98). -/
inductive AxisSet where
  | all
  | list (axes : List Axis)
  deriving DecidableEq, Repr

/-- The body of an interlock entry (R89). -/
structure InterlockBody where
  activeLevel : Level
  action : Action
  axes : AxisSet
  settleTime : Nat
  deriving DecidableEq, Repr

/-- An entry of the interlock table (R89). -/
structure InterlockEntry where
  body : Option InterlockBody
  locked : Bool
  deriving DecidableEq, Repr

/-- The settings record (R171), in the units of the settings body. -/
structure Settings where
  node : Byte
  period : Nat
  grace : Nat
  lagDepth : Nat
  commissionCap : Int
  brakeSettle : Nat
  deriving DecidableEq, Repr

/-! ## The axis context store -/

/-- The seven states of an axis (R21). -/
inductive AxisState where
  | unconfigured
  | locating
  | parked
  | held
  | tracking
  | stopping
  | faulted
  deriving DecidableEq, Repr

/-- The stop causes (R26). -/
inductive StopCause where
  | pair
  | limit
  | interlock
  | diverged
  | missingRecord
  | consoleLate
  | stopRequest
  | snag
  | slack
  | released
  | taken
  deriving DecidableEq, Repr

/-- A stop destination (R19). -/
inductive StopDest where
  | held
  | parked
  deriving DecidableEq, Repr

/-- The fault causes, each with the detail that the fault record stores for it (R29). -/
inductive AxisFault where
  | outOfLimits (actual : Int)
  | noDrive
  | feedbackLost
  | followingError (seq : Word16) (screened : Int) (actual : Int)
  | driveFault (code : Byte)
  | drivePower
  | brake
  | overload (load : Int)
  deriving DecidableEq, Repr

/-- The fault causes by name (R29), as AXIS_STOPPED carries them. -/
inductive FaultCause where
  | outOfLimits
  | noDrive
  | feedbackLost
  | followingError
  | driveFault
  | drivePower
  | brake
  | overload
  deriving DecidableEq, Repr

/-- A fault record (R30, R31). -/
structure FaultRecord where
  what : AxisFault
  further : Nat
  deriving DecidableEq, Repr

/-- The last outcome of a screening (R33). -/
inductive ScreenOutcome where
  | none
  | pass
  | clampAccel
  | clampSpeed
  | ramp
  | refused
  | idle
  deriving DecidableEq, Repr

/-- The command of a downstream record (R21). -/
inductive Command where
  | holdBrake
  | follow
  | quickstop
  deriving DecidableEq, Repr

/-- An entry of an outstanding list (R114). -/
structure OutEntry where
  seq : Word16
  pos : Option Int
  cmd : Command
  deriving DecidableEq, Repr

/-- The last drive status (R19, R34). -/
structure DriveStatus where
  ready : Bool
  brakeReleased : Bool
  powerOk : Bool
  code : Byte
  deriving DecidableEq, Repr

/-- The context of one axis (R19). -/
structure AxisCtx where
  state : AxisState
  pos : Option Int
  step : Int
  lastReq : Option Int
  cause : Option StopCause
  dest : Option StopDest
  capture : Bool
  outstanding : List OutEntry
  acked : Bool
  actual : Option Int
  status : Option DriveStatus
  ring : List Int
  filtered : Option Int
  reference : Option Int
  settle : Nat
  fault : Option FaultRecord
  outcome : ScreenOutcome
  clampRun : Bool
  deriving DecidableEq, Repr

/-- The cleared context of an UNCONFIGURED axis (R17, R41). -/
def AxisCtx.cleared : AxisCtx :=
  { state := .unconfigured, pos := none, step := 0, lastReq := none, cause := none, dest := none, capture := false,
    outstanding := [], acked := false, actual := none, status := none, ring := [], filtered := none, reference := none,
    settle := 0, fault := none, outcome := .none, clampRun := false }

/-- The two blocks that take faults (R29). -/
inductive Judge where
  | engine
  | monitor
  deriving DecidableEq, Repr

/-- The last change that one of these blocks has made of a context that the other was to judge next: which block, of which axis,
when, and the context that it found. The model's own record of what the other block may have judged at the same moment (R31, log
entry 29). -/
structure Judgement where
  judge : Judge
  axis : Axis
  moment : Nat
  found : AxisCtx
  deriving DecidableEq, Repr

/-! ## Interlock lines, cue groups, tare -/

/-- A settled level (R84). -/
inductive Settled where
  | unsettled
  | known (level : Level)
  deriving DecidableEq, Repr

/-- One interlock input line (R84). The held time of the pending level is `now - since`. -/
structure LineState where
  raw : Level
  settled : Settled
  pending : Option Level
  since : Nat
  deriving DecidableEq, Repr

/-- An occupied cue slot (R98). -/
structure CueGroup where
  number : Word16
  axes : List Axis
  deriving DecidableEq, Repr

/-- A tare in flight (R132). -/
structure Tare where
  axis : Axis
  stage : Nat
  count : Nat
  sum : Int
  deriving DecidableEq, Repr

/-! ## Events -/

/-- The event classes (R174). -/
inductive EventClass where
  | fault
  | stop
  | input
  | operation
  | timing
  | record
  | notice
  deriving DecidableEq, Repr

/-- The cause that AXIS_STOPPED carries: a stop cause, or the fault that ended the tracking (R25). -/
inductive LeaveCause where
  | stop (c : StopCause)
  | fault (c : FaultCause)
  deriving DecidableEq, Repr

/-- The assertion that INTERLOCK_CHANGED carries (R88). -/
inductive Assertion where
  | deasserted
  | asserted
  | noEntry
  deriving DecidableEq, Repr

/-- The reason that TARE_BAD carries (R136). -/
inductive TareAbort where
  | leftParked
  | mode
  deriving DecidableEq, Repr

/-- The reason that FOREIGN_MANAGE_DROPPED carries (R155, R157). -/
inductive DropReason where
  | showMode
  | emitterFull
  deriving DecidableEq, Repr

/-- An event, with the subject and detail that section 10.10 lays out for its kind. `ack` is absent when the origin of
UNKNOWN_AXIS or DUPLICATE_RECORD is screening. -/
inductive Event where
  | axisFaulted (axis : Axis) (what : AxisFault)
  | axisStopped (axis : Axis) (cause : LeaveCause) (pos : Int)
  | interlockChanged (line : Line) (level : Level) (assertion : Assertion)
  | tareDone (axis : Axis) (offset : Int)
  | tareBad (axis : Axis) (stage : Nat) (count : Nat) (reason : TareAbort)
  | consoleLate (down : Word16) (con : Word16)
  | consoleResumed (late : Nat) (con : Word16)
  | frameEarly (seq : Word16)
  | frameStale (seq : Word16) (con : Word16)
  | sequenceGap (seq : Word16) (skipped : Word16)
  | unknownAxis (axis : Byte) (ack : Option Word16)
  | duplicateRecord (axis : Byte) (ack : Option Word16)
  | strayFeedback (axis : Axis) (ack : Word16)
  | foreignManageDropped (dest : Byte) (reason : DropReason) (source : Byte) (seq : Word16)
  | clearanceWarning (entry : PairIndex) (axis : Axis) (sepNew : Int)
  | protection (index : Nat) (table : TableCode) (kind : Byte)
  | clampBegin (axis : Axis) (outcome : ScreenOutcome) (step : Int)
  | axisLocated (axis : Axis) (pos : Int)
  deriving DecidableEq, Repr

/-- An event with its retained count (R174, R177). -/
structure QueuedEvent where
  event : Event
  count : Nat
  deriving DecidableEq, Repr

/-- The event unit (R174). `lostSets` counts how often the lost flag has been set: a report frame carries the count at which
it was built, so that R159's question "set since the frame was built" is a comparison (log entry 13). `reportDue` is the
moment of the report timer's next expiry. -/
structure EventUnit where
  queue : List QueuedEvent
  mask : BitVec 7
  latches : Vector (Option QueuedEvent) 4
  lost : Bool
  lostSets : Nat
  reportDue : Nat
  deriving DecidableEq, Repr

/-! ## Answers and the request handler -/

/-- The body of an answer (section 10.10). The answer of GET_AXIS holds the tare offset that R7 says it returns; the layout has no
bytes for it (log entry 27). -/
inductive AnswerBody where
  | empty
  | badField (field : Nat)
  | outOfLimits (pos : Int)
  | duplicatePair (index : PairIndex)
  | axis (axis : Axis)
  | axisEntry (index : Axis) (entry : AxisEntry)
  | pairEntry (index : PairIndex) (entry : PairEntry)
  | lineEntry (index : Line) (entry : InterlockEntry) (settled : Settled)
  | context (c : AxisCtx) (tareOffset : Option Int)
  | settings (r : Settings)
  | staged (axes : Nat)
  | taken (cue : Word16) (taken : Nat) (notTaken : Nat)
  | dropped (cue : Option Word16)
  | halted (stopped : Nat) (disarmed : Nat)
  | tareStage (stage : Nat)
  deriving DecidableEq, Repr

/-- An answer (R163). -/
structure Answer where
  tag : Word16
  kind : Byte
  result : Result
  body : AnswerBody
  deriving DecidableEq, Repr

/-- The request handler (R161, R164). `frames` holds, frame by frame, the requests of accepted frames not yet carried out.
`droppedSets` counts how often the manage-dropped flag has been set, as `EventUnit.lostSets` does for the lost flag. -/
structure RequestHandler where
  mode : Mode
  answers : List Answer
  frames : List (List Envelope)
  dropped : Bool
  droppedSets : Nat
  deriving DecidableEq, Repr

/-! ## The cycle monitor, the screening engine, the feedback monitor -/

/-- The cadence states (R141). -/
inductive Cadence where
  | stopped
  | waiting
  | screening
  deriving DecidableEq, Repr

/-- The emission mark with the window bound and the deadline length fixed there, in clock ticks (R139, R146). -/
structure EmissionMark where
  moment : Nat
  window : Nat
  deadline : Nat
  deriving DecidableEq, Repr

/-- The cycle monitor (R139). -/
structure CycleMonitor where
  cadence : Cadence
  mark : Option EmissionMark
  timer : Bool
  conSeq : Option Word16
  downSeq : Word16
  late : Nat
  deriving DecidableEq, Repr

/-- A downstream setpoint record (section 10.7). An absent position is the placeholder 0 of R21. -/
structure DownRecord where
  axis : Axis
  cmd : Command
  pos : Option Int
  step : Int
  deriving DecidableEq, Repr

/-- The frame in the screening engine and the engine's working values (R42 to R45). `fixed` holds the records of the axes
screened and not yet placed, in ascending axis number, and `placed` those placed. -/
structure Screening where
  seq : Word16
  synthesised : Bool
  todo : List ConsoleRecord
  nextAxis : Nat
  fixed : List DownRecord
  placed : List DownRecord
  restarted : Bool
  deriving DecidableEq, Repr

/-- The feedback monitor (R112): the records not yet taken of the frame in hand and of the frames that wait behind it, and
the set of axes taken in the frame in hand. -/
structure FeedbackMonitor where
  frames : List (List FeedbackRecord)
  taken : List Axis
  deriving DecidableEq, Repr

/-! ## The emitters -/

/-- A downstream setpoint frame built by the part (R151). -/
structure DownFrame where
  source : Byte
  synthesised : Bool
  seq : Word16
  records : List DownRecord
  deriving DecidableEq, Repr

/-- The status summary (R181, section 10.10). -/
structure Summary where
  mode : Mode
  active : Option Word16
  staged : Option Word16
  lost : Bool
  dropped : Bool
  counts : List Nat
  levels : List Settled
  late : Nat
  waiting : Nat
  deriving DecidableEq, Repr

/-- A report frame built by the part (R180). The two stamps are the model's own record for R159. -/
structure ReportFrame where
  source : Byte
  seq : Word16
  summary : Summary
  answers : List Answer
  events : List QueuedEvent
  lostStamp : Nat
  droppedStamp : Nat
  deriving DecidableEq, Repr

/-- A frame on the D-port transmitter. -/
inductive DownSending where
  | setpoint (f : DownFrame)
  | manage (f : ManageFrame)
  deriving DecidableEq, Repr

/-- The downstream emitter and the D-port transmitter (R156); the transmitter is IDLE when `tx` is absent. -/
structure DownEmitter where
  tx : Option DownSending
  slot : Option DownFrame
  queue : List ManageFrame
  deriving DecidableEq, Repr

/-- A forwarded frame (R158). -/
inductive Forwarded where
  | feedback (f : FeedbackFrame)
  | driveReport (f : DriveReport)
  deriving DecidableEq, Repr

/-- A frame on the C-port transmitter. -/
inductive UpSending where
  | forwarded (f : Forwarded)
  | report (f : ReportFrame)
  deriving DecidableEq, Repr

/-- The upstream emitter and the C-port transmitter (R158). -/
structure UpEmitter where
  tx : Option UpSending
  queue : List Forwarded
  slot : Option ReportFrame
  deriving DecidableEq, Repr

/-! ## The part -/

/-- The state of the part. -/
structure State where
  /-- The steps that wait, first in, first out (the model's own). -/
  pending : List Instr
  /-- Clock ticks since the last power-on reset (the model's own, log entry 1). -/
  now : Nat
  rxC : List Byte
  rxD : List Byte
  axisTab : Vector AxisEntry 128
  pairTab : Vector PairEntry 512
  lineTab : Vector InterlockEntry 16
  settings : Settings
  ctx : Vector AxisCtx 128
  /-- What the two blocks that take faults may judge together (the model's own, log entry 29). -/
  judged : Option Judgement
  /-- How often `Config.judgedTogether` has been asked (the model's own, log entry 29). -/
  choices : Nat
  anyFault : Bool
  inMotion : Bool
  lines : Vector LineState 16
  active : Option CueGroup
  staged : Option CueGroup
  tare : Option Tare
  req : RequestHandler
  ev : EventUnit
  cyc : CycleMonitor
  engine : Option Screening
  fb : FeedbackMonitor
  down : DownEmitter
  up : UpEmitter
  deriving DecidableEq, Repr

/-- The reasons for which a step stops with a fault: none. No rule of the manual stops the part, and no meaning answers with
a fault (INVENTORY.md, Faults). -/
inductive Fault where
  deriving DecidableEq, Repr

/-- The reasons for which a step is refused. -/
inductive Refusal where
  /-- Raised by an arm of `exec` whose step has no meaning yet, and by nothing else; safe: the model says nothing of it. -/
  | notModelled (mnemonic : String)
  deriving DecidableEq, Repr

/-- The settings record after power-on reset (R171). -/
def Settings.initial : Settings :=
  { node := 1, period := 10, grace := 2, lagDepth := 4, commissionCap := 500, brakeSettle := 60 }

/-- A line after either reset, at raw level `level` (R84, R87). -/
def LineState.unsettledAt (level : Level) (moment : Nat) : LineState :=
  { raw := level, settled := .unsettled, pending := some level, since := moment }

/-- The part right after power-on reset, every field at the value that the manual's tables state (R2, R41, R65, R84, R89,
R98, R132, R139, R150, R156, R158, R161, R164, R171, R174). The pins are at `Config.resetLevel` (log entry 3). The first
settle of the lines (R87) has not been taken here: POWER_ON_RESET takes it within its step, and from this state the step on
an empty queue queues it (log entry 7). No block has judged, and no free value has been asked for (log entry 29). -/
def State.reset : State :=
  { pending := [], now := 0, rxC := [], rxD := [],
    axisTab := Vector.replicate 128 { body := none, locked := false },
    pairTab := Vector.replicate 512 { body := none, locked := false, warning := false },
    lineTab := Vector.replicate 16 { body := none, locked := false },
    settings := Settings.initial,
    ctx := Vector.replicate 128 AxisCtx.cleared,
    judged := none, choices := 0,
    anyFault := false, inMotion := false,
    lines := Vector.replicate 16 (LineState.unsettledAt Config.resetLevel 0),
    active := none, staged := none, tare := none,
    req := { mode := .start, answers := [], frames := [], dropped := false, droppedSets := 0 },
    ev := { queue := [], mask := 0, latches := Vector.replicate 4 none, lost := false, lostSets := 0,
            reportDue := Settings.initial.period * Config.ticksPerHalfMs },
    cyc := { cadence := .stopped, mark := none, timer := false, conSeq := none, downSeq := 0, late := 0 },
    engine := none,
    fb := { frames := [], taken := [] },
    down := { tx := none, slot := none, queue := [] },
    up := { tx := none, queue := [], slot := none } }

end Sys2Proof.Machine
end

