-- ==== Sys2Proof/Machine/Tables.lean ====
section
/-! DEFINITION. Reading and writing the part's fixed tables (`Vector`), in forms that evaluate in one pass. -/

namespace Sys2Proof.Machine

/-- The entry of a table at an index. -/
def tget {α : Type} {n : Nat} (v : Vector α n) (i : Fin n) : α := v[i]

/-- A table with the entry at an index replaced. -/
def tset {α : Type} {n : Nat} (v : Vector α n) (i : Fin n) (x : α) : Vector α n := v.set i.val x i.isLt

/-- A table with every entry replaced by a function of its index and itself. -/
def tmap {α β : Type} {n : Nat} (f : Fin n → α → β) (v : Vector α n) : Vector β n :=
  ⟨⟨List.zipWith f (List.finRange n) v.toList⟩, by simp⟩

/-- The entries of a table with their indexes, in ascending index. -/
def tzip {α : Type} {n : Nat} (v : Vector α n) : List (Fin n × α) := (List.finRange n).zip v.toList

/-- All axis numbers in ascending order. -/
def allAxes : List Axis := List.finRange 128

/-- All interlock lines in ascending order. -/
def allLines : List Line := List.finRange 16

/-- The number of a table's entry when it is one (R9, R67, R91 check 1: an index above the table's last is BAD_INDEX). -/
def toIndex (n k : Nat) : Option (Fin n) := if h : k < n then some ⟨k, h⟩ else none

end Sys2Proof.Machine
end

