-- ==== Sys2Proof/Machine/Flags.lean ====
section
/-! DEFINITION. The status outputs (R39, R40) and the event unit: classes, the mask, the retained latches, the event queue and
the lost flag (R174 to R178). -/

namespace Sys2Proof.Machine

/-! ## Classes and kinds (section 12.2) -/

/-- The number of a class, 1 to 7. -/
def EventClass.number : EventClass → Nat
  | .fault => 1
  | .stop => 2
  | .input => 3
  | .operation => 4
  | .timing => 5
  | .record => 6
  | .notice => 7

/-- The latch of a retained class; the other three classes are dropped when masked. -/
def EventClass.latch : EventClass → Option (Fin 4)
  | .fault => some 0
  | .stop => some 1
  | .input => some 2
  | .operation => some 3
  | .timing => none
  | .record => none
  | .notice => none

/-- The class of an event. -/
def Event.cls : Event → EventClass
  | .axisFaulted .. => .fault
  | .axisStopped .. => .stop
  | .interlockChanged .. => .input
  | .tareDone .. => .operation
  | .tareBad .. => .operation
  | .consoleLate .. => .timing
  | .consoleResumed .. => .timing
  | .frameEarly .. => .timing
  | .frameStale .. => .timing
  | .sequenceGap .. => .timing
  | .unknownAxis .. => .record
  | .duplicateRecord .. => .record
  | .strayFeedback .. => .record
  | .foreignManageDropped .. => .record
  | .clearanceWarning .. => .record
  | .protection .. => .record
  | .clampBegin .. => .notice
  | .axisLocated .. => .notice

/-- The name of a fault's cause (R29). -/
def AxisFault.cause : AxisFault → FaultCause
  | .outOfLimits _ => .outOfLimits
  | .noDrive => .noDrive
  | .feedbackLost => .feedbackLost
  | .followingError .. => .followingError
  | .driveFault _ => .driveFault
  | .drivePower => .drivePower
  | .brake => .brake
  | .overload _ => .overload

/-- The class number of a queued event. -/
def QueuedEvent.rank (e : QueuedEvent) : Nat := e.event.cls.number

/-! ## The event queue (R178) -/

/-- The queue with an event entered as the newest of its class. -/
def insertByClass (e : QueuedEvent) : List QueuedEvent → List QueuedEvent
  | [] => [e]
  | x :: xs => if x.rank ≤ e.rank then x :: insertByClass e xs else e :: x :: xs

/-- The largest class number present in a queue. -/
def largestClass : List QueuedEvent → Nat
  | [] => 0
  | x :: xs => max x.rank (largestClass xs)

/-- The queue without the newest event of a class. -/
def dropNewest (k : Nat) : List QueuedEvent → List QueuedEvent
  | [] => []
  | x :: xs => if xs.any (fun y => y.rank == k) then x :: dropNewest k xs else if x.rank = k then xs else x :: xs

/-- The lost flag set by a discard at a full queue. -/
def EventUnit.setLost (u : EventUnit) : EventUnit := { u with lost := true, lostSets := u.lostSets + 1 }

/-- An event offered to the queue, handled by the queue's fill (R178). -/
def EventUnit.offer (e : QueuedEvent) (u : EventUnit) : EventUnit :=
  if u.queue.length < Config.eventRoom then { u with queue := insertByClass e u.queue }
  else if e.rank < largestClass u.queue then
    ({ u with queue := insertByClass e (dropNewest (largestClass u.queue) u.queue) }).setLost
  else u.setLost

/-! ## Mask, latches, raising (R175, R177) -/

/-- Whether the class mask masks a class: bit n - 1 stands for class n. -/
def EventUnit.masks (u : EventUnit) (c : EventClass) : Bool := u.mask.getLsbD (c.number - 1)

/-- An event of a masked retained class taken by its latch (R177). -/
def EventUnit.latchEvent (k : Fin 4) (e : Event) (u : EventUnit) : EventUnit :=
  let count := match tget u.latches k with
    | none => 1
    | some held => min (held.count + 1) 255
  { u with latches := tset u.latches k (some { event := e, count := count }) }

/-- An event taken by the event unit (R175). -/
def EventUnit.raise (e : Event) (u : EventUnit) : EventUnit :=
  if u.masks e.cls then
    match e.cls.latch with
    | some k => u.latchEvent k e
    | none => u
  else u.offer { event := e, count := 1 }

/-- An event raised by a block (R175). -/
def raise (e : Event) (s : State) : State := { s with ev := s.ev.raise e }

/-- Events raised one after another. -/
def raiseAll (es : List Event) (s : State) : State := es.foldl (fun t e => raise e t) s

/-! ## The status outputs (R39, R40) -/

/-- Whether an axis state counts as motion (R40). -/
def AxisState.moving (a : AxisState) : Bool := a == .tracking || a == .stopping

/-- Whether some axis is in a state that the test accepts. -/
def someAxis (test : AxisState → Bool) (v : Vector AxisCtx 128) : Bool := v.toList.any (fun c => test c.state)

/-- The contexts replaced, and ANY_FAULT and IN_MOTION informed of the change as the store takes it (R36, R39, R40). -/
def withContexts (v : Vector AxisCtx 128) (s : State) : State :=
  { s with ctx := v, anyFault := someAxis (· == .faulted) v, inMotion := someAxis AxisState.moving v }

end Sys2Proof.Machine
end

