-- ==== Sys2Proof/Machine/Ops.lean ====
section
/-! DEFINITION. The operations that the steps share: time, the axis context store (R36) with stops, rests and faults, the
tare engine's abort, the interlock lines' settling, the emitters, and the answers. -/

namespace Sys2Proof.Machine

/-! ## Numbers (section 5.3) -/

/-- The magnitude of a value. -/
def mag (x : Int) : Int := if x < 0 then -x else x

/-- The sign of a value. -/
def sgn (x : Int) : Int := if x < 0 then -1 else if x = 0 then 0 else 1

/-- A value bounded to a range: the nearer end when it lies outside. -/
def bounded (lo hi x : Int) : Int := if x < lo then lo else if hi < x then hi else x

/-! ## Time (log entry 1) -/

/-- The state at a moment: the clock never runs backwards, so an earlier moment is now. -/
def advanceTo (moment : Nat) (s : State) : State := { s with now := max s.now moment }

/-! ## The axis context store (R36) -/

/-- The context of an axis. -/
def ctxOf (s : State) (a : Axis) : AxisCtx := tget s.ctx a

/-- The body of an axis's record, when it is present. -/
def bodyOf (s : State) (a : Axis) : Option AxisBody := (tget s.axisTab a).body

/-- A change of one context taken by the store. -/
def setCtx (a : Axis) (c : AxisCtx) (s : State) : State := withContexts (tset s.ctx a c) s

/-- A change of every context taken by the store as one. -/
def mapCtx (f : Axis → AxisCtx → AxisCtx) (s : State) : State := withContexts (tmap f s.ctx) s

/-- A body with the tare offset of its load section replaced (R2). -/
def AxisBody.withOffset (offset : Int) (b : AxisBody) : AxisBody :=
  { b with load := b.load.map (fun l => { l with tareOffset := offset }) }

/-- The context of an axis that enters LOCATING (R20). -/
def AxisCtx.locating : AxisCtx := { AxisCtx.cleared with state := .locating }

/-- The context of an axis that enters HELD with the cause it carries: from STOPPING, or from TRACKING in one screening
(R23). -/
def AxisCtx.toHeld (c : AxisCtx) : AxisCtx := { c with state := .held, step := 0, dest := none }

/-- The context of an axis that enters PARKED from HELD or STOPPING, with the brake settle value of the settings (R22). -/
def AxisCtx.toParked (brakeSettle : Nat) (c : AxisCtx) : AxisCtx :=
  { c with state := .parked, step := 0, settle := brakeSettle, cause := none, dest := none, capture := false,
           reference := none }

/-- The context of an axis that enters PARKED from LOCATING at the position it has learned (R22, R122). -/
def AxisCtx.toLocated (pos : Int) (c : AxisCtx) : AxisCtx :=
  { c with state := .parked, pos := some pos, step := 0, cause := none, dest := none, capture := false,
           reference := none }

/-- Whether a cause leaves capture permitted as it stood (R26). RELEASED is "not applicable" there, and R104 keeps the flag:
DEDUCED, log entry 12. -/
def StopCause.recapturable : StopCause → Bool
  | .pair => true
  | .limit => true
  | .interlock => true
  | .diverged => true
  | .missingRecord => true
  | .consoleLate => false
  | .stopRequest => false
  | .snag => false
  | .slack => false
  | .released => true
  | .taken => true

/-- The destination of a stop (R26). -/
def StopCause.destination : StopCause → StopDest
  | .released => .parked
  | _ => .held

/-- The context of a TRACKING axis for which a stop is taken (R25). -/
def AxisCtx.stopped (cause : StopCause) (c : AxisCtx) : AxisCtx :=
  { c with state := .stopping, cause := some cause, dest := some cause.destination, reference := none,
           capture := c.capture && cause.recapturable }

/-- The AXIS_STOPPED of a stop (R25). A TRACKING axis always holds a position (R19); log entry 18. -/
def stoppedEvent (a : Axis) (cause : LeaveCause) (c : AxisCtx) : Event := .axisStopped a cause (c.pos.getD 0)

/-- A stop taken between screenings: applied only to a TRACKING axis, and discarded otherwise (R25, R36). -/
def stopBetween (a : Axis) (cause : StopCause) (s : State) : State :=
  let c := ctxOf s a
  if c.state = .tracking then raise (stoppedEvent a (.stop cause) c) (setCtx a (c.stopped cause) s) else s

/-! ## The tare engine -/

/-- The tare in flight aborted: TARE_BAD, and the engine idle (R136). -/
def abortTare (reason : TareAbort) (s : State) : State :=
  match s.tare with
  | none => s
  | some t => raise (.tareBad t.axis t.stage t.count reason) { s with tare := none }

/-- The tare engine informed of a change of contexts: a tare whose axis has left PARKED is aborted (R36, R136). -/
def informTare (s : State) : State :=
  match s.tare with
  | none => s
  | some t => if (ctxOf s t.axis).state = .parked then s else abortTare .leftParked s

/-! ## Faults (R30, R31) -/

/-- A further fault: the count rises and saturates at 255 (R31). -/
def FaultRecord.again (r : FaultRecord) : FaultRecord := { r with further := min (r.further + 1) 255 }

/-- The context of an axis that enters FAULTED (R30). -/
def AxisCtx.toFaulted (f : AxisFault) (c : AxisCtx) : AxisCtx :=
  { c with state := .faulted, step := 0, cause := none, dest := none, reference := none, capture := false,
           fault := some { what := f, further := 0 } }

/-- The context of an axis for which a fault is taken: discarded for an UNCONFIGURED axis, a further fault for a FAULTED one
(R30, R31, R36). -/
def AxisCtx.takeFault (f : AxisFault) (c : AxisCtx) : AxisCtx :=
  match c.state with
  | .unconfigured => c
  | .faulted => { c with fault := c.fault.map FaultRecord.again }
  | _ => c.toFaulted f

/-- The events of a fault taken for an axis: AXIS_FAULTED when the axis enters FAULTED, with AXIS_STOPPED when it was TRACKING
(R25, R30, R31). -/
def faultEvents (a : Axis) (f : AxisFault) (c : AxisCtx) : List Event :=
  match c.state with
  | .unconfigured => []
  | .faulted => []
  | .tracking => [.axisFaulted a f, stoppedEvent a (.fault f.cause) c]
  | _ => [.axisFaulted a f]

/-- A fault taken by the store (R30, R31, R36). A tare that the fault aborts raises TARE_BAD after AXIS_FAULTED (R136). -/
def takeFault (a : Axis) (f : AxisFault) (s : State) : State :=
  informTare (raiseAll (faultEvents a f (ctxOf s a)) (setCtx a ((ctxOf s a).takeFault f) s))

/-- The faults that a block has found for an axis, taken one after another (R31). -/
def takeFaults (a : Axis) (fs : List AxisFault) (s : State) : State := fs.foldl (fun t f => takeFault a f t) s

/-! ## Two blocks that judge one axis (R31, log entry 29) -/

/-- Whether an axis has been screened in the frame in hand. -/
def Screening.hasScreened (e : Screening) (x : Axis) : Bool := (e.fixed ++ e.placed).any (fun r => r.axis == x)

/-- Whether the second phase would screen an axis: configured, and not yet screened in the frame (R44). -/
def screenable (s : State) (e : Screening) (x : Axis) : Bool :=
  (ctxOf s x).state != .unconfigured && !e.hasScreened x

/-- Whether no axis numbered from `lo` and below `hi` would be screened: the engine passes them (R44). -/
def passes (s : State) (e : Screening) (lo hi : Nat) : Bool :=
  allAxes.all (fun x => decide (x.val < lo) || decide (hi ≤ x.val) || !screenable s e x)

/-- The axis whose record the screening engine places next (R45): none while records or axes are still to be screened. -/
def placedNext (s : State) : Option Axis :=
  match s.engine with
  | none => none
  | some e => if e.todo.isEmpty ∧ passes s e e.nextAxis 128 then e.fixed.head?.map DownRecord.axis else none

/-- The axis for which the feedback monitor takes its next record (R112, R113): none when it has no record in hand, or one that
it will ignore. -/
def checkedNext (s : State) : Option Axis :=
  match s.fb.frames with
  | (r :: _) :: _ => (toIndex 128 r.axis.toNat).filter (fun x => !s.fb.taken.contains x)
  | _ => none

/-- The axis that the other of the two blocks judges next. -/
def Judge.otherNext (judge : Judge) (s : State) : Option Axis :=
  match judge with
  | .monitor => placedNext s
  | .engine => checkedNext s

/-- The change of a context that a block is about to make. When it is the axis that the other block judges next, the context that
the change finds is noted, since the other block may be judging it already; otherwise no note about the axis stands (R31, log
entry 29). -/
def noteJudged (judge : Judge) (a : Axis) (s : State) : State :=
  { s with judged :=
      if judge.otherNext s = some a then some { judge := judge, axis := a, moment := s.now, found := ctxOf s a }
      else s.judged.filter (fun j => j.axis ≠ a) }

/-- The context of an axis as the other block's change at this moment found it, when that change has faulted the axis: what a
block has judged, when the two have judged the axis together (R31, log entry 29). -/
def foundBefore (other : Judge) (a : Axis) (s : State) : Option AxisCtx :=
  match s.judged with
  | none => none
  | some j =>
    if j.judge = other ∧ j.axis = a ∧ j.moment = s.now ∧ (ctxOf s a).state = .faulted ∧ j.found.state ≠ .faulted then
      some j.found
    else none

/-- `Config.judgedTogether` asked once more; what was noted has had its answer (log entry 29). -/
def chosen (s : State) : State := { s with choices := s.choices + 1, judged := none }

/-! ## Interlock lines (R84 to R88) -/

/-- The settle time of a line in clock ticks: its entry's, or 0 when the entry is absent (R86). -/
def settleTicks (s : State) (l : Line) : Nat :=
  match (tget s.lineTab l).body with
  | some b => b.settleTime * Config.ticksPerMs
  | none => 0

/-- The assertion that INTERLOCK_CHANGED carries for a new level (R88). -/
def assertionOf (e : InterlockEntry) (level : Level) : Assertion :=
  match e.body with
  | none => .noEntry
  | some b => if level = b.activeLevel then .asserted else .deasserted

/-- A line settled at its pending level, with INTERLOCK_CHANGED (R85, R88). -/
def settleLine (l : Line) (s : State) : State :=
  let x := tget s.lines l
  match x.pending with
  | none => s
  | some level =>
    raise (.interlockChanged l level (assertionOf (tget s.lineTab l) level))
      { s with lines := tset s.lines l { x with settled := .known level, pending := none } }

/-- Whether a line's pending level has held for its settle time (R85). -/
def settleDue (s : State) (l : Line) : Bool :=
  let x := tget s.lines l
  x.pending.isSome && decide (x.since + settleTicks s l ≤ s.now)

/-- A line settled when its held time has reached its settle time (R86). -/
def settleIfDue (l : Line) (s : State) : State := if settleDue s l then settleLine l s else s

/-- The lines that settle together as a reset or a restart completes (R87), in ascending number (log entry 25). -/
def settleAllDue (s : State) : State := allLines.foldl (fun t l => settleIfDue l t) s

/-- Every line UNSETTLED, its pending level its raw level, its held time 0 (R84, R87). -/
def unsettleLines (s : State) : State :=
  { s with lines := tmap (fun _ x => LineState.unsettledAt x.raw s.now) s.lines }

/-! ## Cue groups -/

/-- Whether an axis is a member of the active group (R98). -/
def inActive (s : State) (a : Axis) : Bool :=
  match s.active with
  | none => false
  | some g => g.axes.contains a

/-- A cue slot without an axis; it keeps its cue number (R17). -/
def CueGroup.without (a : Axis) (g : CueGroup) : CueGroup := { g with axes := g.axes.filter (fun b => b ≠ a) }

/-! ## The emitters (R156 to R158) -/

/-- A downstream setpoint frame handed to the downstream emitter (R156). -/
def handSetpoint (f : DownFrame) (s : State) : State :=
  match s.down.tx with
  | none => { s with down := { s.down with tx := some (.setpoint f) } }
  | some _ => { s with down := { s.down with slot := some f } }

/-- A foreign manage frame handed to the downstream emitter (R157). -/
def handManage (f : ManageFrame) (s : State) : State :=
  if s.down.tx.isNone ∧ s.down.slot.isNone ∧ s.down.queue.isEmpty then
    { s with down := { s.down with tx := some (.manage f) } }
  else if s.down.queue.length < Config.manageRoom then
    { s with down := { s.down with queue := s.down.queue ++ [f] } }
  else raise (.foreignManageDropped f.hdr.dest .emitterFull f.hdr.source f.hdr.seq) s

/-- A forwarded frame handed to the upstream emitter (R158). -/
def handForward (f : Forwarded) (s : State) : State :=
  if s.up.tx.isNone ∧ s.up.queue.isEmpty ∧ s.up.slot.isNone then
    { s with up := { s.up with tx := some (.forwarded f) } }
  else if s.up.queue.length < Config.forwardRoom then
    { s with up := { s.up with queue := s.up.queue ++ [f] } }
  else s

/-- A report frame handed to the upstream emitter (R158). -/
def handReport (f : ReportFrame) (s : State) : State :=
  if s.up.tx.isNone ∧ s.up.queue.isEmpty then { s with up := { s.up with tx := some (.report f) } }
  else { s with up := { s.up with slot := some f } }

/-! ## Answers (R163) -/

/-- The answer of a request, queued as it is carried out (R163). -/
def answer (e : Envelope) (result : Result) (body : AnswerBody) (s : State) : State :=
  { s with req := { s.req with
      answers := s.req.answers ++ [{ tag := e.tag, kind := e.kind, result := result, body := body }] } }

/-- An answer ACCEPTED without a body. -/
def accept (e : Envelope) (s : State) : State := answer e .accepted .empty s

/-- A refusal without a body. -/
def refuse (e : Envelope) (result : Result) (s : State) : State := answer e result .empty s

/-- A refusal BAD_FIELD with its field number. -/
def refuseField (e : Envelope) (field : Nat) (s : State) : State := answer e .badField (.badField field) s

/-- A refusal PROTECTED, with the PROTECTION event (R168). -/
def refuseProtected (e : Envelope) (table : TableCode) (index : Nat) (s : State) : State :=
  refuse e .isProtected (raise (.protection index table e.kind) s)

/-- Whether the locked flag of an entry protects it: in SHOW only (R168). -/
def protects (s : State) (locked : Bool) : Bool := s.req.mode == .inShow && locked

/-- A request on the entry of a table that a number names; a number above the last index is refused BAD_INDEX (R9, R16,
R32, R38, R67, R70, R71, R91, R93, R133, R138, R169, R170). -/
def indexed (n : Nat) (e : Envelope) (k : Nat) (own : Fin n → State → State) (s : State) : State :=
  match toIndex n k with
  | none => refuse e .badIndex s
  | some i => own i s

/-- A PUT or ERASE_ENTRY on an entry, refused PROTECTED when the entry is protected (R168). -/
def guarded (e : Envelope) (table : TableCode) (index : Nat) (locked : Bool) (own : State → State) (s : State) : State :=
  if protects s locked then refuseProtected e table index s else own s

/-- Whether an axis state is HELD, TRACKING or STOPPING: the AXIS_MOVING condition of table and settings writes (R10, R172). -/
def AxisState.inCue (a : AxisState) : Bool := a == .held || a == .tracking || a == .stopping

/-- Whether a tare of an axis is in flight. -/
def underTare (s : State) (a : Axis) : Bool :=
  match s.tare with
  | none => false
  | some t => t.axis == a

/-- A context with its load ring emptied (R128, R135, R138). -/
def AxisCtx.emptyRing (c : AxisCtx) : AxisCtx := { c with ring := [], filtered := none }

/-- The request handler's next request taken from the accepted frames (R162). -/
def nextRequest (s : State) : Option (Envelope × State) :=
  match s.req.frames with
  | (e :: rest) :: more =>
    some (e, { s with req := { s.req with frames := if rest.isEmpty then more else rest :: more } })
  | _ => none

/-- One request carried out: `run` on the next request when its kind is `kind`. When the handler's next request is of another
kind, or there is none, this step is not one that the handler takes, and nothing changes (log entry 5). -/
def carryOut (kind : Byte) (run : Envelope → State → State) (s : State) : Host.Outcome State Fault Refusal :=
  match nextRequest s with
  | some (e, t) => if e.kind = kind then .next (run e t) else .next s
  | none => .next s

end Sys2Proof.Machine
end

