-- ==== Sys2Proof/Machine/Wire.lean ====
section
/-! DEFINITION. Frames as bytes: byte order, the header, the check value, the link check and the form check of a port, and
the layouts of the frames that the part receives (R150, R151, sections 10.6 to 10.8). -/

namespace Sys2Proof.Machine

/-! ## Byte order (section 10.6: most significant byte first) -/

/-- Two bytes of a field, most significant first. -/
def word16 (hi lo : Byte) : Word16 := hi ++ lo

/-- Four bytes of a field, most significant first. -/
def word32 (b3 b2 b1 b0 : Byte) : Word32 := b3 ++ b2 ++ b1 ++ b0

/-- A 16-bit field as its bytes. -/
def bytes16 (w : Word16) : List Byte := [w.extractLsb' 8 8, w.extractLsb' 0 8]

/-- A 32-bit field as its bytes. -/
def bytes32 (w : Word32) : List Byte :=
  [w.extractLsb' 24 8, w.extractLsb' 16 8, w.extractLsb' 8 8, w.extractLsb' 0 8]

/-! ## The check value (section 10.6) -/

/-- One bit of the check value's division. The bytes are taken least significant bit first, so the generator 04C11DB7 stands
bit-reflected, EDB88320. -/
def crcBit (c : Word32) : Word32 := if c.getLsbD 0 then (c >>> 1) ^^^ 0xEDB88320#32 else c >>> 1

/-- One byte of the check value's division. -/
def crcByte (c : Word32) (b : Byte) : Word32 :=
  crcBit (crcBit (crcBit (crcBit (crcBit (crcBit (crcBit (crcBit (c ^^^ b.setWidth 32))))))))

/-- The check value of a header and body: initial value all ones, final value inverted. -/
def crc32 (bs : List Byte) : Word32 := ~~~(bs.foldl crcByte 0xFFFFFFFF#32)

/-! ## Headers and frames (section 10.6) -/

/-- The ten header bytes. -/
def headerBytes (kind : Byte) (h : Header) (count len : Nat) : List Byte :=
  [kind, h.dest, h.source, h.flags] ++ bytes16 h.seq ++ bytes16 (BitVec.ofNat 16 count) ++ bytes16 (BitVec.ofNat 16 len)

/-- A whole frame: header, body, check value. -/
def frameBytes (kind : Byte) (h : Header) (count : Nat) (body : List Byte) : List Byte :=
  let hb := headerBytes kind h count body.length ++ body
  hb ++ bytes32 (crc32 hb)

/-! ## Records and envelopes of received frames (sections 10.7, 10.8) -/

/-- A console setpoint record as its 6 bytes. -/
def ConsoleRecord.bytes (r : ConsoleRecord) : List Byte := [r.axis, r.flags] ++ bytes32 r.position

/-- A feedback record as its 12 bytes. -/
def FeedbackRecord.bytes (r : FeedbackRecord) : List Byte :=
  [r.axis, r.status] ++ bytes16 r.ack ++ bytes32 r.actual ++ bytes16 r.rawLoad ++ [r.code, r.spare]

/-- A request envelope as its bytes. -/
def Envelope.bytes (e : Envelope) : List Byte :=
  bytes16 e.tag ++ [e.kind] ++ bytes16 (BitVec.ofNat 16 e.body.length) ++ e.body

/-- The records of a console setpoint frame's body; none when its length is no multiple of 6. -/
def readConsoleRecords : List Byte → Option (List ConsoleRecord)
  | [] => some []
  | a :: f :: p3 :: p2 :: p1 :: p0 :: rest =>
    (readConsoleRecords rest).map ({ axis := a, flags := f, position := word32 p3 p2 p1 p0 } :: ·)
  | _ => none

/-- The records of a feedback frame's body; none when its length is no multiple of 12. -/
def readFeedbackRecords : List Byte → Option (List FeedbackRecord)
  | [] => some []
  | a :: st :: k1 :: k0 :: p3 :: p2 :: p1 :: p0 :: l1 :: l0 :: c :: sp :: rest =>
    (readFeedbackRecords rest).map
      ({ axis := a, status := st, ack := word16 k1 k0, actual := word32 p3 p2 p1 p0, rawLoad := word16 l1 l0,
         code := c, spare := sp } :: ·)
  | _ => none

/-- The `n` request envelopes that a manage frame's body must be made of exactly (R150, R160). -/
def readEnvelopes : Nat → List Byte → Option (List Envelope)
  | 0, [] => some []
  | n + 1, t1 :: t0 :: k :: l1 :: l0 :: rest =>
    let len := (word16 l1 l0).toNat
    if len ≤ rest.length then
      (readEnvelopes n (rest.drop len)).map ({ tag := word16 t1 t0, kind := k, body := rest.take len } :: ·)
    else none
  | _, _ => none

/-- Whether `n` envelopes, answers first and then events, fill the bytes exactly: an answer has 6 bytes and the body length
of its bytes 4 and 5, an event 6 bytes and the detail length of its byte 5 (section 10.8). Nothing in an envelope says which
of the two it is, so the check passes when some reading fits. DEDUCED, log entry 14. -/
def reportFits (answers : Bool) : Nat → List Byte → Bool
  | 0, bs => bs.isEmpty
  | n + 1, _ :: _ :: _ :: _ :: b4 :: b5 :: rest =>
    let asAnswer := (word16 b4 b5).toNat
    (decide (b5.toNat ≤ rest.length) && reportFits false n (rest.drop b5.toNat)) ||
      (answers && decide (asAnswer ≤ rest.length) && reportFits true n (rest.drop asAnswer))
  | _, _ => false

/-! ## Whole received frames -/

/-- The frame's bytes on the link. -/
def SetpointFrame.bytes (f : SetpointFrame) : List Byte :=
  frameBytes 1 f.hdr f.records.length (f.records.flatMap ConsoleRecord.bytes)

/-- The frame's bytes on the link. -/
def FeedbackFrame.bytes (f : FeedbackFrame) : List Byte :=
  frameBytes 2 f.hdr f.records.length (f.records.flatMap FeedbackRecord.bytes)

/-- The frame's bytes on the link. -/
def ManageFrame.bytes (f : ManageFrame) : List Byte :=
  frameBytes 3 f.hdr f.requests.length (f.requests.flatMap Envelope.bytes)

/-- The frame's bytes on the link. -/
def DriveReport.bytes (f : DriveReport) : List Byte := frameBytes 4 f.hdr f.count.toNat f.body

/-- The form check of a port for a kind, a record count and a body, and the frame that passes it (R150, R151). A setpoint
frame at the D-port is discarded by the router without an event (R154), as a frame that fails the check is, so it is not
read further here. -/
def readBody (port : Port) (kind : Byte) (h : Header) (count : Nat) (body : List Byte) : Option Frame :=
  match kind.toNat with
  | 1 =>
    match port with
    | .drive => none
    | .console =>
      match readConsoleRecords body with
      | some rs => if rs.length = count ∧ count ≤ 128 then some (.setpoint { hdr := h, records := rs }) else none
      | none => none
  | 2 =>
    match readFeedbackRecords body with
    | some rs => if rs.length = count ∧ count ≤ 128 then some (.feedback { hdr := h, records := rs }) else none
    | none => none
  | 3 =>
    match readEnvelopes count body with
    | some es => if count ≤ 8 then some (.manage { hdr := h, requests := es }) else none
    | none => none
  | 4 =>
    if count ≤ 12 ∧ 21 ≤ body.length ∧ reportFits true count (body.drop 21) then
      some (.report { hdr := h, count := BitVec.ofNat 16 count, body := body })
    else none
  | _ => none

/-- The frame that a port takes from the bytes of a reception: none when the link check or the form check fails (R150). -/
def readFrame (port : Port) : List Byte → Option Frame
  | k :: d :: sr :: fl :: s1 :: s0 :: c1 :: c0 :: l1 :: l0 :: rest =>
    let len := (word16 l1 l0).toNat
    let body := rest.take len
    let h : Header := { dest := d, source := sr, flags := fl, seq := word16 s1 s0 }
    let count := (word16 c1 c0).toNat
    if body.length = len ∧ rest.drop len = bytes32 (crc32 (headerBytes k h count len ++ body)) then
      readBody port k h count body
    else none
  | _ => none

end Sys2Proof.Machine
end

