-- ==== Sys2Proof/Machine/Operands.lean ====
section
/-! DEFINITION. The operands of the requests: the decoding of request bodies (R160, sections 10.8 and 10.9), with the field
number of the BAD_FIELD that a body out of form is refused with, and the range checks of table bodies (R11, R68, R91, R172). -/

namespace Sys2Proof.Machine

/-- The unsigned value of a byte field. -/
def u8 (b : Byte) : Nat := b.toNat

/-- The unsigned value of a 16-bit field. -/
def u16 (hi lo : Byte) : Nat := (word16 hi lo).toNat

/-- The unsigned value of a 32-bit field. -/
def u32 (b3 b2 b1 b0 : Byte) : Int := ((word32 b3 b2 b1 b0).toNat : Int)

/-! ## Request kinds and groups -/

/-- The twenty request kinds are 1 to 20 (section 10.8). -/
def knownKind (k : Byte) : Bool := decide (1 ≤ k.toNat ∧ k.toNat ≤ 20)

/-- The request groups (R167). -/
inductive RequestGroup where
  | general
  | structural
  | motion
  deriving DecidableEq, Repr

/-- Whether a group admits a mode (R167). -/
def RequestGroup.admits : RequestGroup → Mode → Bool
  | .general, _ => true
  | .structural, m => m == .commission
  | .motion, m => m == .commission || m == .inShow

/-- A request judged by its first two stages: decoding, then the group check; `own` holds its own checks and its effect
(R163). -/
def judged {α : Type} (e : Envelope) (g : RequestGroup) (decoded : Except Nat α) (own : α → State → State) (s : State) :
    State :=
  match decoded with
  | .error field => refuseField e field s
  | .ok x => if g.admits s.req.mode then own x s else refuse e .wrongMode s

/-! ## Axis lists and simple bodies -/

/-- An axis list as carried: ALL, or numbers that the request judges (section 10.8). -/
inductive AxisList where
  | all
  | numbers (ns : List Nat)
  deriving DecidableEq, Repr

/-- An axis list that fills the bytes exactly: a count byte and that many numbers, or the count 255 alone (R160). -/
def decodeAxisList : List Byte → Except Nat AxisList
  | [] => .error 0
  | c :: ns =>
    if c.toNat = 255 then if ns.isEmpty then .ok .all else .error 0
    else if ns.length = c.toNat then .ok (.numbers (ns.map BitVec.toNat)) else .error 0

/-- The axis set that a list names: each number once, in ascending order; none when it names a number above 127 (R101). -/
def AxisList.toSet : AxisList → Option AxisSet
  | .all => some .all
  | .numbers ns =>
    if ns.all (fun n => decide (n < 128)) then some (.list (allAxes.filter (fun a => ns.contains a.val))) else none

/-- The members of an axis set in ascending order. -/
def AxisSet.members : AxisSet → List Axis
  | .all => allAxes
  | .list axes => axes

/-- Whether an axis set holds an axis: ALL holds every axis number (R90). -/
def AxisSet.covers (a : Axis) : AxisSet → Bool
  | .all => true
  | .list axes => axes.contains a

/-- A request with no operands. -/
def decodeNone : List Byte → Except Nat Unit
  | [] => .ok ()
  | _ => .error 0

/-- A request whose body is one byte. -/
def decodeByte : List Byte → Except Nat Nat
  | [b] => .ok b.toNat
  | _ => .error 0

/-- A MODE target; one outside 0 to 2 is refused with field number 1 (R160). -/
def decodeMode : List Byte → Except Nat Mode
  | [b] =>
    match b.toNat with
    | 0 => .ok .start
    | 1 => .ok .commission
    | 2 => .ok .inShow
    | _ => .error 1
  | _ => .error 0

/-- The mask byte of SET_MASK: its seven class flags (R176; bit 7 is not judged). -/
def decodeMask : List Byte → Except Nat (BitVec 7)
  | [b] => .ok (b.setWidth 7)
  | _ => .error 0

/-- The table that a code names (section 10.8). -/
def tableOf (code : Byte) : Option TableCode :=
  match code.toNat with
  | 1 => some .axisTable
  | 2 => some .pairTable
  | 3 => some .lineTable
  | _ => none

/-- A table code and an index; a code outside 1 to 3 is refused with field number 1 (R160). -/
def decodeEntryRef : List Byte → Except Nat (TableCode × Nat)
  | [t, i1, i0] =>
    match tableOf t with
    | some table => .ok (table, u16 i1 i0)
    | none => .error 1
  | _ => .error 0

/-- A cue number and an axis list (STAGE_CUE). -/
def decodeCue : List Byte → Except Nat (Word16 × AxisList)
  | c1 :: c0 :: rest => (decodeAxisList rest).map (fun l => (word16 c1 c0, l))
  | _ => .error 0

/-! ## Range checks -/

/-- The number of the first field whose check fails. -/
def firstBad (checks : List (Nat × Bool)) : Option Nat := (checks.find? (fun c => !c.2)).map Prod.fst

/-- The body that checked fields spell, or the number of the first field that fails. -/
def checkedBody {α : Type} (checks : List (Nat × Bool)) (body : Option α) : Except Nat α :=
  match firstBad checks, body with
  | some field, _ => .error field
  | none, some b => .ok b
  | none, none => .error 0

/-- Whether a value lies in a range, both ends included. -/
def within (lo hi x : Int) : Bool := decide (lo ≤ x ∧ x ≤ hi)

/-- The checks of the load section's fields (R11). -/
def LoadSection.checks (l : LoadSection) : List (Nat × Bool) :=
  [(11, within 1 65535 l.gain), (12, within (-32768) 32767 l.tareOffset), (13, within 1 1000000 l.overload),
   (14, within 0 (l.overload - 1) l.slack), (15, within 0 1000000 l.snagBand),
   (16, l.filterLen == 1 || l.filterLen == 2 || l.filterLen == 4 || l.filterLen == 8)]

/-- The checks of an axis body's fields in field-number order (section 1.2, R11). -/
def AxisBody.checks (b : AxisBody) : List (Nat × Bool) :=
  [(1, within 0 31999999 b.lower), (2, within (b.lower + 1) 32000000 b.upper), (3, within 1 20000 b.vmax),
   (4, within 1 b.vmax b.amax), (5, within b.amax 20000 b.sdec), (6, within 0 30000000 b.hang),
   (7, within 0 5000000 b.crown), (8, within 1000 500000 b.followTol), (9, within 0 50000 b.captureWin),
   (10, within 1000 2000000 b.trackWin)] ++
  (match b.load with
   | none => []
   | some l => l.checks)

/-- Whether a position lies within the soft travel limits (R3). -/
def AxisBody.inLimits (b : AxisBody) (p : Int) : Bool := within b.lower b.upper p

/-! ## Table bodies (section 10.9) -/

/-- A list of bytes cut into 32-bit fields. -/
def fields32 : List Byte → List Int
  | b3 :: b2 :: b1 :: b0 :: rest => u32 b3 b2 b1 b0 :: fields32 rest
  | _ => []

/-- The load section of an axis body, its last 17 bytes. -/
def decodeLoad : List Byte → Option LoadSection
  | [g1, g0, t1, t0, o3, o2, o1, o0, s3, s2, s1, s0, n3, n2, n1, n0, f] =>
    some { gain := u16 g1 g0, tareOffset := (word16 t1 t0).toInt, overload := u32 o3 o2 o1 o0, slack := u32 s3 s2 s1 s0,
           snagBand := u32 n3 n2 n1 n0, filterLen := u8 f }
  | _ => none

/-- An axis body: 41 bytes, or 58 when bit 0 of its flags is set; any other length is refused with field number 0. -/
def decodeAxisBody : List Byte → Except Nat AxisBody
  | flags :: rest =>
    match fields32 (rest.take 40), flags.getLsbD 0, decodeLoad (rest.drop 40) with
    | [lower, upper, vmax, amax, sdec, hang, crown, followTol, captureWin, trackWin], true, some l =>
      .ok { lower, upper, vmax, amax, sdec, hang, crown, followTol, captureWin, trackWin, load := some l }
    | [lower, upper, vmax, amax, sdec, hang, crown, followTol, captureWin, trackWin], false, _ =>
      if rest.length = 40 then
        .ok { lower, upper, vmax, amax, sdec, hang, crown, followTol, captureWin, trackWin, load := none }
      else .error 0
    | _, _, _ => .error 0
  | [] => .error 0

/-- The axis number and body of PUT_AXIS. -/
def decodePutAxis : List Byte → Except Nat (Nat × AxisBody)
  | a :: rest => (decodeAxisBody rest).map (fun b => (a.toNat, b))
  | [] => .error 0

/-- A pair body as carried: the two axis numbers are judged by R68. -/
structure PairFields where
  upper : Nat
  lower : Nat
  gap : Int
  warn : Int
  deriving DecidableEq, Repr

/-- The index and body of PUT_PAIR. -/
def decodePutPair : List Byte → Except Nat (Nat × PairFields)
  | [i1, i0, u, l, g3, g2, g1, g0, w3, w2, w1, w0] =>
    .ok (u16 i1 i0, { upper := u8 u, lower := u8 l, gap := u32 g3 g2 g1 g0, warn := u32 w3 w2 w1 w0 })
  | _ => .error 0

/-- The checks of a pair body's fields (R68). -/
def PairFields.checks (f : PairFields) : List (Nat × Bool) :=
  [(1, decide (f.upper < 128)), (2, decide (f.lower < 128 ∧ f.lower ≠ f.upper)), (3, within 0 10000000 f.gap),
   (4, within 0 1000000 f.warn)]

/-- The pair body that checked fields spell. -/
def PairFields.body (f : PairFields) : Option PairBody :=
  match toIndex 128 f.upper, toIndex 128 f.lower with
  | some u, some l => some { upper := u, lower := l, gap := f.gap, warn := f.warn }
  | _, _ => none

/-- An interlock body as carried (section 10.9): its codes and its list are judged by R91. -/
structure InterlockFields where
  level : Nat
  action : Nat
  cap : Int
  settleTime : Nat
  axes : AxisList
  deriving DecidableEq, Repr

/-- The line number and body of PUT_INTERLOCK. -/
def decodePutInterlock : List Byte → Except Nat (Nat × InterlockFields)
  | n :: lv :: ac :: c1 :: c0 :: st :: rest =>
    (decodeAxisList rest).map (fun l =>
      (n.toNat, { level := u8 lv, action := u8 ac, cap := u16 c1 c0, settleTime := u8 st, axes := l }))
  | _ => .error 0

/-- The level that a code names: 0 LOW, 1 HIGH. -/
def levelOf : Nat → Option Level
  | 0 => some .low
  | 1 => some .high
  | _ => none

/-- The action that a code names, with the cap of a SLOW entry: 1 HALT, 2 SLOW, 3 NO_DOWN, 4 NO_UP. -/
def actionOf (cap : Int) : Nat → Option Action
  | 1 => some .halt
  | 2 => some (.slow cap)
  | 3 => some .noDown
  | 4 => some .noUp
  | _ => none

/-- The checks of an interlock body's fields in field-number order; field 3 is tested for SLOW only (R91). -/
def InterlockFields.checks (f : InterlockFields) : List (Nat × Bool) :=
  [(1, (levelOf f.level).isSome), (2, (actionOf f.cap f.action).isSome),
   (3, f.action != 2 || within 0 20000 f.cap), (4, f.axes.toSet.isSome), (5, decide (f.settleTime ≤ 255))]

/-- The interlock body that checked fields spell. -/
def InterlockFields.body (f : InterlockFields) : Option InterlockBody :=
  match levelOf f.level, actionOf f.cap f.action, f.axes.toSet with
  | some level, some action, some axes =>
    some { activeLevel := level, action := action, axes := axes, settleTime := f.settleTime }
  | _, _, _ => none

/-- The settings body of PUT_SETTINGS. -/
def decodeSettings : List Byte → Except Nat Settings
  | [n, t, g, k, c1, c0, b] =>
    .ok { node := n, period := u8 t, grace := u8 g, lagDepth := u8 k, commissionCap := u16 c1 c0, brakeSettle := u8 b }
  | _ => .error 0

/-- The checks of a settings record's fields; a grace above half the period fails field 3 (R171, R172). -/
def Settings.checks (r : Settings) : List (Nat × Bool) :=
  [(1, decide (1 ≤ r.node.toNat ∧ r.node.toNat ≤ 254)), (2, decide (4 ≤ r.period ∧ r.period ≤ 40)),
   (3, decide (r.grace ≤ 20 ∧ 2 * r.grace ≤ r.period)), (4, decide (2 ≤ r.lagDepth ∧ r.lagDepth ≤ 8)),
   (5, within 0 20000 r.commissionCap), (6, decide (1 ≤ r.brakeSettle ∧ r.brakeSettle ≤ 255))]

end Sys2Proof.Machine
end

