-- ==== Sys2Proof/Machine/AxisRequests.lean ====
section
/-! DEFINITION. The requests on one axis: GET_AXIS, CLEAR_FAULT, TARE and UNTARE (R32, R38, R133, R138). -/

namespace Sys2Proof.Machine

/-- The load section of an axis's record, when there is one. -/
def loadOfAxis (s : State) (x : Axis) : Option LoadSection := (bodyOf s x).bind AxisBody.load

/-! ## GET_AXIS (R7, R38) -/

/-- One GET_AXIS request, answered with the context and the tare offset of the record (R7, R38, log entry 27). -/
def runGetAxis (e : Envelope) : State → State :=
  judged e .general (decodeByte e.body) (fun k =>
    indexed 128 e k (fun x s => answer e .accepted (.context (ctxOf s x) ((loadOfAxis s x).map LoadSection.tareOffset)) s))

/-- GET_AXIS (R38). -/
def execGetAxis (s : State) : Host.Outcome State Fault Refusal := carryOut 3 runGetAxis s

/-! ## CLEAR_FAULT (R32) -/

/-- CLEAR_FAULT of an axis judged (R32). -/
def judgeClearFault (e : Envelope) (x : Axis) (s : State) : State :=
  if (ctxOf s x).state = .faulted then accept e (setCtx x AxisCtx.locating s) else refuse e .notFaulted s

/-- One CLEAR_FAULT request. -/
def runClearFault (e : Envelope) : State → State :=
  judged e .general (decodeByte e.body) (fun k => indexed 128 e k (judgeClearFault e))

/-- CLEAR_FAULT (R32). -/
def execClearFault (s : State) : Host.Outcome State Fault Refusal := carryOut 7 runClearFault s

/-! ## TARE and UNTARE (R133, R138) -/

/-- TARE of an axis judged (R133). -/
def judgeTare (e : Envelope) (x : Axis) (s : State) : State :=
  if (loadOfAxis s x).isNone then refuse e .noLoadCell s
  else if (ctxOf s x).state ≠ .parked then refuse e .notParked s
  else if s.tare.isSome then refuse e .busy s
  else answer e .accepted (.tareStage 0) { s with tare := some { axis := x, stage := 0, count := 0, sum := 0 } }

/-- One TARE request. -/
def runTare (e : Envelope) : State → State :=
  judged e .structural (decodeByte e.body) (fun k => indexed 128 e k (judgeTare e))

/-- TARE (R133). -/
def execTare (s : State) : Host.Outcome State Fault Refusal := carryOut 16 runTare s

/-- The context of an axis after an accepted UNTARE (R138). -/
def AxisCtx.untared (c : AxisCtx) : AxisCtx :=
  { c.emptyRing with reference := if c.state = .tracking then none else c.reference }

/-- An accepted UNTARE (R138). -/
def untareAxis (x : Axis) (s : State) : State :=
  let v := tget s.axisTab x
  setCtx x (ctxOf s x).untared
    { s with axisTab := tset s.axisTab x { v with body := v.body.map (AxisBody.withOffset 0) } }

/-- UNTARE of an axis judged (R138). -/
def judgeUntare (e : Envelope) (x : Axis) (s : State) : State :=
  if (loadOfAxis s x).isNone then refuse e .noLoadCell s
  else if underTare s x then refuse e .busy s
  else accept e (untareAxis x s)

/-- One UNTARE request. -/
def runUntare (e : Envelope) : State → State :=
  judged e .structural (decodeByte e.body) (fun k => indexed 128 e k (judgeUntare e))

/-- UNTARE (R138). -/
def execUntare (s : State) : Host.Outcome State Fault Refusal := carryOut 17 runUntare s

end Sys2Proof.Machine
end

