-- ==== Sys2Proof/Machine/CueRequests.lean ====
section
/-! DEFINITION. The cue group block (chapter 6): STAGE_CUE, TAKE_CUE, DROP_CUE and HALT_AXES. -/

namespace Sys2Proof.Machine

/-! ## STAGE_CUE (R100 to R102) -/

/-- The refusal that the state of a listed axis gives (R100, check 4). -/
def stageRefusal (s : State) (a : Axis) : Option (Result × Axis) :=
  match (ctxOf s a).state with
  | .unconfigured => some (.notConfigured, a)
  | .locating => some (.notPositioned, a)
  | .faulted => some (.axisFaulted, a)
  | _ => none

/-- Checks 3 and 4 of STAGE_CUE on a merged set, and its effect (R100, R102). -/
def judgeStageSet (e : Envelope) (cue : Word16) (axes : List Axis) (s : State) : State :=
  if s.staged.isSome then refuse e .pendingFull s
  else
    match axes.findSome? (stageRefusal s) with
    | some (result, a) => answer e result (.axis a) s
    | none => answer e .accepted (.staged axes.length) { s with staged := some { number := cue, axes := axes } }

/-- STAGE_CUE judged (R100). -/
def judgeStage (e : Envelope) (op : Word16 × AxisList) (s : State) : State :=
  match op.2.toSet with
  | none => refuseField e 2 s
  | some axes => judgeStageSet e op.1 axes.members s

/-- One STAGE_CUE request. -/
def runStageCue (e : Envelope) : State → State := judged e .motion (decodeCue e.body) (judgeStage e)

/-- STAGE_CUE (R102). -/
def execStageCue (s : State) : Host.Outcome State Fault Refusal := carryOut 18 runStageCue s

/-! ## TAKE_CUE (R103 to R105) -/

/-- The handover of one axis, by its state and its membership of the new active group (R104). -/
def AxisCtx.handover (brakeSettle : Nat) (member : Bool) (c : AxisCtx) : AxisCtx :=
  match c.state, member with
  | .parked, true => { c with state := .held, step := 0, cause := some .taken, capture := true }
  | .held, true => { c with capture := true }
  | .held, false => c.toParked brakeSettle
  | .tracking, false => c.stopped .released
  | .stopping, true => { c with dest := some .held, capture := true }
  | .stopping, false => { c with dest := some .parked }
  | _, _ => c

/-- The AXIS_STOPPED of a TRACKING axis that a take releases (R105). -/
def releasedEvent (axes : List Axis) (ac : Axis × AxisCtx) : Option Event :=
  if ac.2.state = .tracking ∧ !axes.contains ac.1 then some (stoppedEvent ac.1 (.stop .released) ac.2) else none

/-- Whether a member of the new active group is taken: PARKED, HELD, TRACKING or STOPPING at the take (R105). -/
def AxisState.takeable (a : AxisState) : Bool := a == .parked || a.inCue

/-- An accepted TAKE_CUE of a staged group (R103 to R105). -/
def takeGroup (e : Envelope) (g : CueGroup) (s : State) : State :=
  let taken := (g.axes.filter (fun a => (ctxOf s a).state.takeable)).length
  let t := mapCtx (fun a c => c.handover s.settings.brakeSettle (g.axes.contains a))
    { s with active := some g, staged := none }
  answer e .accepted (.taken g.number taken (g.axes.length - taken))
    (informTare (raiseAll ((tzip s.ctx).filterMap (releasedEvent g.axes)) t))

/-- TAKE_CUE judged (R103). -/
def judgeTake (e : Envelope) (s : State) : State :=
  match s.staged with
  | none => refuse e .nothingPending s
  | some g => takeGroup e g s

/-- One TAKE_CUE request. -/
def runTakeCue (e : Envelope) : State → State := judged e .motion (decodeNone e.body) (fun _ => judgeTake e)

/-- TAKE_CUE (R104). -/
def execTakeCue (s : State) : Host.Outcome State Fault Refusal := carryOut 19 runTakeCue s

/-! ## DROP_CUE (R107) -/

/-- One DROP_CUE request. -/
def runDropCue (e : Envelope) : State → State :=
  judged e .motion (decodeNone e.body) (fun _ s =>
    answer e .accepted (.dropped (s.staged.map CueGroup.number)) { s with staged := none })

/-- DROP_CUE (R107). -/
def execDropCue (s : State) : Host.Outcome State Fault Refusal := carryOut 20 runDropCue s

/-! ## HALT_AXES (R108) -/

/-- The context of a named axis after a HALT_AXES (R108). -/
def AxisCtx.halted (c : AxisCtx) : AxisCtx :=
  match c.state with
  | .tracking => c.stopped .stopRequest
  | .held => { c with cause := some .stopRequest, capture := false }
  | .stopping => { c with capture := false }
  | _ => c

/-- The AXIS_STOPPED of a named TRACKING axis (R108). -/
def haltedEvent (axes : AxisSet) (ac : Axis × AxisCtx) : Option Event :=
  if axes.covers ac.1 ∧ ac.2.state = .tracking then some (stoppedEvent ac.1 (.stop .stopRequest) ac.2) else none

/-- Whether a HALT_AXES stops an axis: named and TRACKING. -/
def haltStops (axes : AxisSet) (ac : Axis × AxisCtx) : Bool := axes.covers ac.1 && ac.2.state == .tracking

/-- Whether a HALT_AXES disarms an axis: named, HELD or STOPPING, with its capture permission set. -/
def haltDisarms (axes : AxisSet) (ac : Axis × AxisCtx) : Bool :=
  axes.covers ac.1 && (ac.2.state == .held || ac.2.state == .stopping) && ac.2.capture

/-- An accepted HALT_AXES (R108). -/
def haltSet (e : Envelope) (axes : AxisSet) (s : State) : State :=
  let all := tzip s.ctx
  let t := mapCtx (fun a c => if axes.covers a then c.halted else c) s
  answer e .accepted (.halted (all.filter (haltStops axes)).length (all.filter (haltDisarms axes)).length)
    (raiseAll (all.filterMap (haltedEvent axes)) t)

/-- HALT_AXES judged (R108). -/
def judgeHalt (e : Envelope) (l : AxisList) (s : State) : State :=
  match l.toSet with
  | none => refuseField e 1 s
  | some axes => haltSet e axes s

/-- One HALT_AXES request. -/
def runHaltAxes (e : Envelope) : State → State := judged e .general (decodeAxisList e.body) (judgeHalt e)

/-- HALT_AXES (R108). -/
def execHaltAxes (s : State) : Host.Outcome State Fault Refusal := carryOut 6 runHaltAxes s

end Sys2Proof.Machine
end

