-- ==== Sys2Proof/Machine/Screening.lean ====
section
/-! DEFINITION. Setpoint screening (chapter 3), with the pair check (chapter 4) and the actions of the interlock lines
(chapter 5): the steps SCREEN_CONSOLE_RECORD, SCREEN_UNNAMED_AXIS and OUTSTANDING_APPEND. -/

namespace Sys2Proof.Machine

/-! ## Interlock actions on an axis (R90, R94 to R96) -/

/-- Whether a line is asserted for its entry: UNSETTLED, or settled at the active level (R90). -/
def InterlockBody.assertedAt (b : InterlockBody) (x : LineState) : Bool :=
  x.settled == .unsettled || x.settled == .known b.activeLevel

/-- The actions of the asserted entries that cover an axis (R90). -/
def actionsOn (s : State) (a : Axis) : List Action :=
  (tzip s.lineTab).filterMap (fun le =>
    match le.2.body with
    | some b => if b.assertedAt (tget s.lines le.1) && b.axes.covers a then some b.action else none
    | none => none)

/-- The speed cap of a SLOW action. -/
def Action.cap : Action → Option Int
  | .slow cap => some cap
  | _ => none

/-- Whether the commission cap is a term of an axis's effective cap (R49). -/
def commissionCapApplies (s : State) (a : Axis) : Bool :=
  s.req.mode == .commission || (s.req.mode == .inShow && !(tget s.axisTab a).locked)

/-- The effective cap Vc of an axis (R49). -/
def effectiveCap (s : State) (a : Axis) (b : AxisBody) : Int :=
  let slow := (actionsOn s a).filterMap Action.cap
  (if commissionCapApplies s a then s.settings.commissionCap :: slow else slow).foldl min b.vmax

/-! ## Stopping distance and ramp (R59, R60) -/

/-- The stopping distance of a step magnitude `v` at stopping deceleration `sdec` (R59). -/
def dStop (sdec v : Int) : Int :=
  let q := v / sdec
  q * v - sdec * (q * (q + 1) / 2)

/-- The ramp step from a step (R60). -/
def rampStep (sdec v : Int) : Int := sgn v * max 0 (mag v - sdec)

/-! ## The candidate (R48 to R51) -/

/-- The position and step of an axis, before a screening or proposed by it. -/
structure Motion where
  pos : Int
  step : Int
  deriving DecidableEq, Repr

/-- The acceleration clamp (R48). -/
def accelClamp (amax vPrev dReq : Int) : Int := bounded (vPrev - amax) (vPrev + amax) dReq

/-- The speed cap (R50). -/
def speedCap (sdec cap vPrev dA : Int) : Int :=
  if mag dA ≤ cap then dA
  else if sgn dA = sgn vPrev ∧ cap < mag vPrev then sgn dA * max cap (mag vPrev - sdec)
  else sgn dA * cap

/-- The candidate of an axis (R48, R50). -/
def candidate (b : AxisBody) (cap : Int) (prev : Motion) (req : Int) : Motion :=
  let d := speedCap b.sdec cap prev.step (accelClamp b.amax prev.step (req - prev.pos))
  { pos := prev.pos + d, step := d }

/-- The outcome of a candidate that passes (R51). -/
def candidateOutcome (b : AxisBody) (prev cand : Motion) (req : Int) : ScreenOutcome :=
  if cand.step = req - prev.pos then .pass
  else if accelClamp b.amax prev.step (req - prev.pos) ≠ req - prev.pos then .clampAccel
  else .clampSpeed

/-- The projected stopping position (R55). -/
def projection (sdec : Int) (m : Motion) : Int := m.pos + sgn m.step * dStop sdec (mag m.step)

/-! ## Pair rules (R72 to R76, R80) -/

/-- The position and step with which an axis enters a separation; none when it makes its rules inactive (R72). -/
def AxisCtx.presence (c : AxisCtx) : Option Motion :=
  match c.state, c.pos with
  | .parked, some p => some { pos := p, step := 0 }
  | .held, some p => some { pos := p, step := 0 }
  | .tracking, some p => some { pos := p, step := c.step }
  | .stopping, some p => some { pos := p, step := c.step }
  | .faulted, some p => some { pos := p, step := 0 }
  | _, _ => none

/-- The low edge of the upper axis (R73). -/
def lowEdge (b : AxisBody) (m : Motion) : Int :=
  m.pos - b.hang - (if m.step < 0 then dStop b.sdec (mag m.step) else 0)

/-- The high edge of the lower axis (R73). -/
def highEdge (b : AxisBody) (m : Motion) : Int :=
  m.pos + b.crown + (if 0 < m.step then dStop b.sdec m.step else 0)

/-- The separation of an upper axis from a lower one (R74). -/
def separation (bu : AxisBody) (u : Motion) (bl : AxisBody) (l : Motion) : Int := lowEdge bu u - highEdge bl l

/-- The two separations of an active rule in one screening (R76). -/
structure RuleSep where
  old : Int
  new : Int
  deriving DecidableEq, Repr

/-- The separations that an entry gives for the screening of `x`: none when the entry does not name `x` or is inactive
(R72, R75, R76). -/
def ruleSep (s : State) (x : Axis) (b : AxisBody) (prev cand : Motion) (e : PairEntry) : Option RuleSep :=
  match e.body with
  | none => none
  | some r =>
    if r.upper = x then
      match (ctxOf s r.lower).presence, bodyOf s r.lower with
      | some m, some bl => some { old := separation b prev bl m, new := separation b cand bl m }
      | _, _ => none
    else if r.lower = x then
      match (ctxOf s r.upper).presence, bodyOf s r.upper with
      | some m, some bu => some { old := separation bu m b prev, new := separation bu m b cand }
      | _, _ => none
    else none

/-- Whether an entry refuses the candidate of `x` (R76). -/
def ruleRefuses (s : State) (x : Axis) (b : AxisBody) (prev cand : Motion) (e : PairEntry) : Bool :=
  match e.body, ruleSep s x b prev cand e with
  | some r, some q => !(decide (r.gap ≤ q.new) || decide (q.old ≤ q.new))
  | _, _ => false

/-- Whether the pair check refuses a candidate (R75). -/
def pairRefuses (s : State) (x : Axis) (b : AxisBody) (prev cand : Motion) : Bool :=
  s.pairTab.toList.any (ruleRefuses s x b prev cand)

/-- An entry after a passed candidate of `x`: the in-warning flag of an active rule follows Sep_new against G + W (R80). -/
def warnEntry (s : State) (x : Axis) (b : AxisBody) (prev cand : Motion) (e : PairEntry) : PairEntry :=
  match e.body, ruleSep s x b prev cand e with
  | some r, some q => { e with warning := decide (q.new < r.gap + r.warn) }
  | _, _ => e

/-- The CLEARANCE_WARNING of an entry whose flag goes from clear to set (R80, R81). -/
def warnEvent (s : State) (x : Axis) (b : AxisBody) (prev cand : Motion) (ie : PairIndex × PairEntry) : Option Event :=
  match ie.2.body, ruleSep s x b prev cand ie.2 with
  | some r, some q =>
    if q.new < r.gap + r.warn ∧ ie.2.warning = false then some (.clearanceWarning ie.1 x q.new) else none
  | _, _ => none

/-- The warning band after a passed candidate of `x`, in ascending entry index (R80, R81). -/
def warnPairs (x : Axis) (b : AxisBody) (prev cand : Motion) (s : State) : State :=
  raiseAll ((tzip s.pairTab).filterMap (warnEvent s x b prev cand))
    { s with pairTab := tmap (fun _ e => warnEntry s x b prev cand e) s.pairTab }

/-! ## The checks (R52) -/

/-- The cause of the first check that refuses a candidate, or none when it passes every check (R52 to R56). -/
def checkCandidate (s : State) (x : Axis) (b : AxisBody) (prev cand : Motion) (req : Int) : Option StopCause :=
  let acts := actionsOn s x
  if acts.contains .halt then some .interlock
  else if b.trackWin < mag (req - cand.pos) then some .diverged
  else if (cand.step < 0 ∧ acts.contains .noDown) ∨ (0 < cand.step ∧ acts.contains .noUp) then some .interlock
  else if !b.inLimits (projection b.sdec cand) then some .limit
  else if pairRefuses s x b prev cand then some .pair
  else none

/-! ## Screening one axis (R47) -/

/-- Whether an outcome is a clamp (R33). -/
def ScreenOutcome.clamped (o : ScreenOutcome) : Bool := o == .clampAccel || o == .clampSpeed

/-- The context with the outcome of its screening, and the clamp-run flag that goes with it (R33). -/
def AxisCtx.withOutcome (o : ScreenOutcome) (c : AxisCtx) : AxisCtx := { c with outcome := o, clampRun := o.clamped }

/-- The context of a STOPPING axis after its ramp step (R27, R60): a step of 0 takes it to its destination (R22, R23). -/
def AxisCtx.ramped (b : AxisBody) (brakeSettle : Nat) (c : AxisCtx) : AxisCtx :=
  let r := rampStep b.sdec c.step
  (if r = 0 then
    match c.dest with
    | some .parked => c.toParked brakeSettle
    | _ => c.toHeld
   else { c with pos := c.pos.map (· + r), step := r }).withOutcome .ramp

/-- A stop taken by the screening of a TRACKING axis: AXIS_STOPPED with the position before it, and the first ramp step in
the same screening (R25, R58). -/
def stopInScreening (x : Axis) (b : AxisBody) (cause : StopCause) (c : AxisCtx) (s : State) : State :=
  raise (stoppedEvent x (.stop cause) c) (setCtx x ((c.stopped cause).ramped b s.settings.brakeSettle) s)

/-- A candidate that has passed every check (R24, R51, R57, R62, R80): `c` is the context it finds, HELD or TRACKING. -/
def passCandidate (x : Axis) (b : AxisBody) (prev cand : Motion) (req : Int) (c : AxisCtx) (s : State) : State :=
  let o := candidateOutcome b prev cand req
  let reference := if c.state = .held then (if b.load.isSome then c.filtered else none) else c.reference
  let c' := ({ c with state := .tracking, pos := some cand.pos, step := cand.step, cause := none,
                      reference := reference }).withOutcome o
  let t := setCtx x c' (warnPairs x b prev cand s)
  if o.clamped && !c.clampRun then raise (.clampBegin x o cand.step) t else t

/-- The screening of a TRACKING axis with a request (R57, R58). -/
def screenTracking (x : Axis) (b : AxisBody) (p req : Int) (c : AxisCtx) (s : State) : State :=
  let prev : Motion := { pos := p, step := c.step }
  let cand := candidate b (effectiveCap s x b) prev req
  match checkCandidate s x b prev cand req with
  | none => passCandidate x b prev cand req c s
  | some cause => stopInScreening x b cause c s

/-- The capture conditions of a HELD axis with a request (R61). -/
def mayCapture (s : State) (x : Axis) (b : AxisBody) (p req : Int) (c : AxisCtx) : Bool :=
  inActive s x && c.capture && !(actionsOn s x).contains .halt && decide (mag (req - p) ≤ b.captureWin)

/-- The capture test of a HELD axis with a request (R61, R62). -/
def screenHeld (x : Axis) (b : AxisBody) (p req : Int) (c : AxisCtx) (s : State) : State :=
  if mayCapture s x b p req c then
    let prev : Motion := { pos := p, step := 0 }
    let cand := candidate b (effectiveCap s x b) prev req
    match checkCandidate s x b prev cand req with
    | none => passCandidate x b prev cand req c s
    | some cause => setCtx x (({ c with cause := some cause }).withOutcome .refused) s
  else setCtx x (c.withOutcome .idle) s

/-- The screening of one axis, with or without a request, by its state (R47, R63, R64). `req` is the requested position of
the record taken for the axis, which becomes its last request before the state decides (R43). An axis in HELD, TRACKING or
STOPPING has a record and a position (R2, R19); log entry 18. -/
def screenAxis (x : Axis) (req : Option Int) (synthesised : Bool) (s : State) : State :=
  let c0 := ctxOf s x
  let c := { c0 with lastReq := if req.isSome then req else c0.lastReq }
  match c.state, bodyOf s x, c.pos with
  | .stopping, some b, _ => setCtx x (c.ramped b s.settings.brakeSettle) s
  | .held, some b, some p =>
    match req with
    | some r => screenHeld x b p r c s
    | none => setCtx x (c.withOutcome .idle) s
  | .tracking, some b, some p =>
    match req with
    | some r => screenTracking x b p r c s
    | none => stopInScreening x b (if synthesised then .consoleLate else .missingRecord) c s
  | .unconfigured, _, _ => s
  | _, _, _ => setCtx x (c.withOutcome .idle) s

/-! ## The downstream record of a screened axis (R21, R45) -/

/-- The contents of the downstream record that a context decides (R21). -/
def recordOf (x : Axis) (c : AxisCtx) : DownRecord :=
  match c.state with
  | .unconfigured => { axis := x, cmd := .holdBrake, pos := none, step := 0 }
  | .locating => { axis := x, cmd := .holdBrake, pos := none, step := 0 }
  | .parked => { axis := x, cmd := .holdBrake, pos := c.pos, step := 0 }
  | .held => { axis := x, cmd := .follow, pos := c.pos, step := 0 }
  | .tracking => { axis := x, cmd := .follow, pos := c.pos, step := c.step }
  | .stopping => { axis := x, cmd := .follow, pos := c.pos, step := c.step }
  | .faulted => { axis := x, cmd := .quickstop, pos := c.pos, step := 0 }

/-- The records with one more, in ascending axis number (R45). -/
def insertRecord (r : DownRecord) : List DownRecord → List DownRecord
  | [] => [r]
  | x :: xs => if x.axis < r.axis then x :: insertRecord r xs else r :: x :: xs

/-- An axis screened, and its downstream record fixed (R43 to R45). -/
def screenAndFix (x : Axis) (req : Option Int) (e : Screening) (s : State) : State :=
  let t := screenAxis x req e.synthesised s
  { t with engine := some { e with fixed := insertRecord (recordOf x (ctxOf t x)) e.fixed } }

/-! ## The steps -/

/-- One record of the console frame taken (R43). -/
def takeConsoleRecord (r : ConsoleRecord) (e : Screening) (s : State) : State :=
  match toIndex 128 r.axis.toNat with
  | none => raise (.unknownAxis r.axis none) { s with engine := some e }
  | some x =>
    if (ctxOf s x).state = .unconfigured then raise (.unknownAxis r.axis none) { s with engine := some e }
    else if e.hasScreened x then raise (.duplicateRecord r.axis none) { s with engine := some e }
    else screenAndFix x (some r.position.toInt) e s

/-- SCREEN_CONSOLE_RECORD (R43). With no frame in the engine, or none of its records left, the engine does not take this
step (log entry 5). -/
def execScreenConsoleRecord (s : State) : Host.Outcome State Fault Refusal :=
  match s.engine with
  | none => .next s
  | some e =>
    match e.todo with
    | [] => .next s
    | r :: rest => .next (takeConsoleRecord r { e with todo := rest } s)

/-- SCREEN_UNNAMED_AXIS (R44): in the second phase the engine reaches `x`, having passed the axes before it that it would not
screen, and screens `x` without a request when it is configured and not yet screened, else passes it too. When an axis before
`x` is still to be screened, the engine does not take this step (log entries 5 and 9). -/
def execScreenUnnamedAxis (x : Axis) (s : State) : Host.Outcome State Fault Refusal :=
  match s.engine with
  | none => .next s
  | some e =>
    if e.todo.isEmpty ∧ e.nextAxis ≤ x.val ∧ passes s e e.nextAxis x.val then
      let e' := { e with nextAxis := x.val + 1 }
      if screenable s e x then .next (screenAndFix x none e' s) else .next { s with engine := some e' }
    else .next s

/-- The entry that an append adds for a record (R114, R115). -/
def outEntryOf (seq : Word16) (r : DownRecord) : OutEntry := { seq := seq, pos := r.pos, cmd := r.cmd }

/-- The record sent for an axis whose append overflows: QUICKSTOP at the frozen position (R45, R115). -/
def overflowRecord (x : Axis) (c : AxisCtx) : DownRecord := { axis := x, cmd := .quickstop, pos := c.pos, step := 0 }

/-- The fault of an overflow (R115). -/
def overflowFault (c : AxisCtx) : AxisFault := if c.acked then .feedbackLost else .noDrive

/-- An overflow of the list that the engine judged in the context `found`: the fault taken, the list holding the new entry only,
and the record that the frame then carries (R45, R115). -/
def overflow (seq : Word16) (x : Axis) (found : AxisCtx) (s : State) : State × DownRecord :=
  let q := overflowRecord x (ctxOf s x)
  let t := takeFault x (overflowFault found) s
  (setCtx x { ctxOf t x with outstanding := [outEntryOf seq q] } t, q)

/-- A record appended to its axis's outstanding list, with the record that the frame then carries (R45, R115). -/
def appendRecord (seq : Word16) (r : DownRecord) (s : State) : State × DownRecord :=
  let c := ctxOf s r.axis
  let t := noteJudged .engine r.axis s
  if c.state = .unconfigured then (s, r)
  else if c.outstanding.length < s.settings.lagDepth then
    (setCtx r.axis { c with outstanding := c.outstanding ++ [outEntryOf seq r] } t, r)
  else if c.state = .faulted then
    let grown := c.outstanding ++ [outEntryOf seq r]
    (setCtx r.axis { c with outstanding := grown.drop (grown.length - s.settings.lagDepth) } t, r)
  else overflow seq r.axis c t

/-- A record appended (R31, R45). When a feedback record has faulted the axis at this moment while this append was the engine's
next step, the engine may have judged the list as that record found it: an overflow of that list is then a further
fault. Otherwise the append is judged as the list stands. -/
def judgeAppend (seq : Word16) (r : DownRecord) (s : State) : State × DownRecord :=
  match foundBefore .monitor r.axis s with
  | none => appendRecord seq r s
  | some found =>
    if Config.judgedTogether s.choices ∧ s.settings.lagDepth ≤ found.outstanding.length then
      overflow seq r.axis found (noteJudged .engine r.axis (chosen s))
    else appendRecord seq r (chosen s)

/-- OUTSTANDING_APPEND (R31, R45, R115): in the third phase the next record in ascending axis number is placed. While records or
axes are still to be screened, or when every record is placed, the engine does not take this step (log entry 5). -/
def execOutstandingAppend (s : State) : Host.Outcome State Fault Refusal :=
  match s.engine with
  | none => .next s
  | some e =>
    match e.fixed with
    | [] => .next s
    | r :: rest =>
      if e.todo.isEmpty ∧ passes s e e.nextAxis 128 then
        let tr := judgeAppend e.seq r s
        .next { tr.1 with engine := some { e with nextAxis := 128, fixed := rest, placed := e.placed ++ [tr.2] } }
      else .next s

end Sys2Proof.Machine
end

