-- ==== Sys2Proof/Machine/Cycle.lean ====
section
/-! DEFINITION. Cycle supervision (chapter 9): console setpoint frames judged, DEADLINE_EXPIRY and EMISSION. -/

namespace Sys2Proof.Machine

/-- The late count raised by one, saturating (R147). -/
def raiseLate (n : Nat) : Nat := min (n + 1) 65535

/-- A frame in the screening engine, numbered with the downstream sequence (R42). -/
def startScreening (synthesised : Bool) (records : List ConsoleRecord) (s : State) : State :=
  { s with
    cyc := { s.cyc with cadence := .screening, timer := false }
    engine := some { seq := s.cyc.downSeq, synthesised := synthesised, todo := records, nextAxis := 0, fixed := [],
                     placed := [], restarted := false } }

/-- CONSOLE_RESUMED and the late count cleared, when the late count is above 0 (R145). -/
def resumeConsole (seq : Word16) (s : State) : State :=
  if 0 < s.cyc.late then raise (.consoleResumed s.cyc.late seq) { s with cyc := { s.cyc with late := 0 } } else s

/-- A console frame accepted (R145); `gap` is the number of sequence numbers skipped, when R144 requires SEQUENCE_GAP. -/
def acceptFrame (f : SetpointFrame) (gap : Option Word16) (s : State) : State :=
  let t := resumeConsole f.hdr.seq { s with cyc := { s.cyc with conSeq := some f.hdr.seq } }
  let u := match gap with
    | some n => raise (.sequenceGap f.hdr.seq n) t
    | none => t
  startScreening false f.records u

/-- Whether the acceptance window has opened: T - g from the emission mark, as fixed there (R143). -/
def windowOpen (s : State) : Bool :=
  match s.cyc.mark with
  | some m => decide (m.moment + m.window ≤ s.now)
  | none => true

/-- A frame that passes the window judged by its sequence number (R144). -/
def judgeSequence (f : SetpointFrame) (s : State) : State :=
  match s.cyc.conSeq with
  | none => acceptFrame f none s
  | some c =>
    let d := f.hdr.seq - c
    if d = 1 then acceptFrame f none s
    else if 2 ≤ d.toNat ∧ d.toNat ≤ 32768 then acceptFrame f (some (d - 1)) s
    else raise (.frameStale f.hdr.seq c) s

/-- A console setpoint frame judged by the mode and the cadence state (R142). -/
def judgeConsoleFrame (f : SetpointFrame) (s : State) : State :=
  match s.req.mode, s.cyc.cadence with
  | .start, _ => s
  | _, .stopped => acceptFrame f none s
  | _, .waiting => if windowOpen s then judgeSequence f s else raise (.frameEarly f.hdr.seq) s
  | _, .screening => raise (.frameEarly f.hdr.seq) s

/-- A synthesised frame handed to the screening engine (R147). -/
def synthesise (s : State) : State :=
  let t := { s with cyc := { s.cyc with late := raiseLate s.cyc.late } }
  startScreening true []
    (if s.cyc.late = 0 then raise (.consoleLate s.cyc.downSeq (s.cyc.conSeq.getD 0)) t else t)

/-- DEADLINE_EXPIRY (R147): the expiry of the deadline that the emission mark fixed, taken at that moment or later. When the
timer is idle there is no expiry, and nothing changes (log entries 1 and 5). -/
def execDeadlineExpiry (s : State) : Host.Outcome State Fault Refusal :=
  match s.cyc.cadence, s.cyc.timer, s.cyc.mark with
  | .waiting, true, some m => .next (synthesise (advanceTo (m.moment + m.deadline) s))
  | _, _, _ => .next s

/-- The mark of an emission, with the window bound and the deadline length fixed from the settings (R140, R146). -/
def markNow (synthesised : Bool) (s : State) : EmissionMark :=
  { moment := s.now,
    window := (s.settings.period - s.settings.grace) * Config.ticksPerHalfMs,
    deadline := (if synthesised then s.settings.period else s.settings.period + s.settings.grace) * Config.ticksPerHalfMs }

/-- The downstream frame built from the frame in the engine (R45, R151), its source the node address as it stands at the emission,
which completes the building (R152): DESIGN CHOICE, log entry 30. -/
def builtFrame (e : Screening) (s : State) : DownFrame :=
  { source := s.settings.node, synthesised := e.synthesised, seq := e.seq, records := e.placed }

/-- The built frame emitted (R146), or after a RESTART the cadence stopped (R149). -/
def emit (e : Screening) (s : State) : State :=
  let t := handSetpoint (builtFrame e s) { s with engine := none }
  if e.restarted then
    { t with cyc := { s.cyc with downSeq := s.cyc.downSeq + 1, cadence := .stopped, timer := false, mark := none } }
  else
    { t with cyc := { s.cyc with downSeq := s.cyc.downSeq + 1, cadence := .waiting, timer := true,
                                 mark := some (markNow e.synthesised s) } }

/-- EMISSION (R146), when every record of the frame in hand is screened and placed (R45). Before that the engine does not
take this step (log entry 5). -/
def execEmission (moment : Nat) (s : State) : Host.Outcome State Fault Refusal :=
  match s.engine with
  | none => .next s
  | some e =>
    if e.todo.isEmpty ∧ e.fixed.isEmpty ∧ passes s e e.nextAxis 128 then .next (emit e (advanceTo moment s)) else .next s

end Sys2Proof.Machine
end

