-- ==== Sys2Proof/Machine/Feedback.lean ====
section
/-! DEFINITION. Drive feedback (chapter 7) with the load computation and the tare samples (chapter 8): FEEDBACK_RECORD. -/

namespace Sys2Proof.Machine

/-! ## The record's fields (section 10.7) -/

/-- The drive status that a record reports (R111). -/
def statusOf (r : FeedbackRecord) : DriveStatus :=
  { ready := r.status.getLsbD 0, brakeReleased := r.status.getLsbD 1, powerOk := r.status.getLsbD 2, code := r.code }

/-! ## Load (R127 to R131) -/

/-- The load that a raw count stands for: truncated toward zero, then saturated (R127). -/
def loadOf (l : LoadSection) (raw : Int) : Int :=
  bounded (-1000000) 1000000 (((raw - l.tareOffset) * l.gain).tdiv 256)

/-- The average of the newest loads of a ring, rounded down (R128). -/
def filteredOf (filterLen : Nat) (ring : List Int) : Int :=
  (ring.take filterLen).sum / ((ring.take filterLen).length : Int)

/-- A load placed in the ring, and the filtered load formed (R128). -/
def AxisCtx.takeLoad (l : LoadSection) (load : Int) (c : AxisCtx) : AxisCtx :=
  let ring := (load :: c.ring).take Config.ringRoom
  { c with ring := ring, filtered := some (filteredOf l.filterLen ring) }

/-- The slack and snag checks of an axis that was TRACKING at the record, with the step it had then; they apply while it is
still TRACKING (R129 to R131). -/
def slackSnag (x : Axis) (l : LoadSection) (step : Int) (s : State) : State :=
  let c := ctxOf s x
  match c.state, c.filtered with
  | .tracking, some f =>
    if step < 0 ∧ f < l.slack then stopBetween x .slack s
    else
      let ref := c.reference.getD f
      let t := setCtx x { c with reference := some ref } s
      if 0 < l.snagBand ∧ l.snagBand < mag (f - ref) then stopBetween x .snag t else t
  | _, _ => s

/-! ## The tare engine's samples (R134, R135) -/

/-- The offset stored at the end of a tare: the axis's load section rewritten, its ring emptied, TARE_DONE raised (R135). -/
def completeTare (x : Axis) (sum : Int) (s : State) : State :=
  let offset := sum / 16
  let e := tget s.axisTab x
  let body := e.body.map (AxisBody.withOffset offset)
  let t := { s with axisTab := tset s.axisTab x { e with body := body }, tare := none }
  raise (.tareDone x offset) (setCtx x (ctxOf t x).emptyRing t)

/-- A raw load handed to the tare engine by a record whose checks have left its axis PARKED (R134). -/
def tareSample (x : Axis) (raw : Int) (s : State) : State :=
  match s.tare with
  | none => s
  | some t =>
    if t.axis = x ∧ (ctxOf s x).state = .parked then
      if t.count + 1 < Config.tareSamples then
        { s with tare := some { t with stage := 1, count := t.count + 1, sum := t.sum + raw } }
      else completeTare x (t.sum + raw) s
    else s

/-! ## The steps of the checks (R119) -/

/-- The fault causes of steps 1 and 2 (R120). -/
def driveFaults (r : FeedbackRecord) : List AxisFault :=
  (if r.code ≠ 0 then [.driveFault r.code] else []) ++ (if (statusOf r).powerOk then [] else [.drivePower])

/-- The fault cause of step 3 (R121); `settle` is the brake settle remaining as the record is reached. -/
def brakeFaults (r : FeedbackRecord) (m : OutEntry) (settle : Nat) : List AxisFault :=
  if m.cmd = .holdBrake ∧ (statusOf r).brakeReleased ∧ settle = 0 then [.brake] else []

/-- The fault cause of step 4: a position to be learned outside the limits (R122), or a following error (R123). -/
def positionFaults (b : AxisBody) (m : OutEntry) (state : AxisState) (actual : Int) : List AxisFault :=
  if state = .locating then if b.inLimits actual then [] else [.outOfLimits actual]
  else
    match m.pos with
    | none => []
    | some p => if b.followTol < mag (actual - p) then [.followingError m.seq p actual] else []

/-- The fault causes that steps 1 to 4 find, in their order, judged against the context `found` that the axis had as the record
was reached (R119). -/
def stepFaults (r : FeedbackRecord) (m : OutEntry) (b : AxisBody) (found : AxisCtx) : List AxisFault :=
  driveFaults r ++ brakeFaults r m found.settle ++ positionFaults b m found.state r.actual.toInt

/-- The fault cause of the overload check in step 5 (R129). -/
def overloadFaults (l : LoadSection) (raw : Int) : List AxisFault :=
  if l.overload < loadOf l raw then [.overload (loadOf l raw)] else []

/-- Step 5 (R124, R129): `found` is the context as the record found it. An overload found in LOCATING leaves the axis without the
screened position that step 4 has learned (R129; DEDUCED, log entry 28). -/
def checkLoad (x : Axis) (l : LoadSection) (raw : Int) (found : AxisCtx) (s : State) : State :=
  let u := takeFaults x (overloadFaults l raw) (setCtx x ((ctxOf s x).takeLoad l (loadOf l raw)) s)
  match found.state with
  | .tracking => slackSnag x l found.step u
  | .parked => tareSample x raw u
  | .locating =>
    if (ctxOf s x).state = .parked ∧ (ctxOf u x).state = .faulted then setCtx x { ctxOf u x with pos := none } u else u
  | _ => u

/-- The position learned in step 4: an axis that is still LOCATING, so that steps 1 to 4 have found no fault cause, enters PARKED
at its actual position (R20, R22, R122). -/
def learnPosition (x : Axis) (actual : Int) (s : State) : State :=
  if (ctxOf s x).state = .locating then raise (.axisLocated x actual) (setCtx x ((ctxOf s x).toLocated actual) s) else s

/-- The five steps of the checks on a matched record (R119). -/
def checkRecord (x : Axis) (r : FeedbackRecord) (m : OutEntry) (b : AxisBody) (found : AxisCtx) (s : State) : State :=
  let t := learnPosition x r.actual.toInt (takeFaults x (stepFaults r m b found) s)
  match b.load with
  | some l => checkLoad x l r.rawLoad.toInt found t
  | none => t

/-- Whether a record finds a fault cause, as judged against the context `found` (R119). -/
def findsFault (r : FeedbackRecord) (m : OutEntry) (b : AxisBody) (found : AxisCtx) : Bool :=
  !(stepFaults r m b found).isEmpty ||
    (match b.load with
     | some l => !(overloadFaults l r.rawLoad.toInt).isEmpty
     | none => false)

/-- Brake settle remaining decreased by one when it is above 0, after the checks (R119, R121). -/
def countSettle (x : Axis) (s : State) : State :=
  setCtx x { ctxOf s x with settle := (ctxOf s x).settle - 1 } s

/-! ## Matching (R117) -/

/-- The entry that a sequence number matches, with the entries newer than it (R117). -/
def matchEntry (ack : Word16) : List OutEntry → Option (OutEntry × List OutEntry)
  | [] => none
  | m :: newer => if m.seq = ack then some (m, newer) else matchEntry ack newer

/-- The context that a matched record leaves before its checks: the matched and older entries removed, the last actual
position and drive status set, acked-once set (R34, R117). For a FAULTED axis acked-once is set too: log entry 10. -/
def AxisCtx.acknowledged (r : FeedbackRecord) (newer : List OutEntry) (c : AxisCtx) : AxisCtx :=
  { c with outstanding := newer, actual := some r.actual.toInt, status := some (statusOf r), acked := true }

/-- A record matched against the outstanding list of its axis (R117, R125). -/
def matchRecord (x : Axis) (r : FeedbackRecord) (s : State) : State :=
  let c := ctxOf s x
  match matchEntry r.ack c.outstanding with
  | none => raise (.strayFeedback x r.ack) s
  | some (m, newer) =>
    let t := setCtx x (c.acknowledged r newer) (noteJudged .monitor x s)
    if c.state = .faulted then t
    else
      match bodyOf s x with
      | some b => countSettle x (checkRecord x r m b c t)
      | none => t

/-- The five steps of the checks on a record that matches an entry of the list in `found` and finds a fault cause there; none for
any other record. The axis has left `found` since: the list keeps what it holds now (R31). -/
def faultsFoundIn (found : AxisCtx) (x : Axis) (r : FeedbackRecord) (s : State) : Option State :=
  match bodyOf s x, matchEntry r.ack found.outstanding with
  | some b, some (m, _) =>
    if findsFault r m b found then
      let c := ctxOf s x
      some (countSettle x (checkRecord x r m b found (setCtx x (c.acknowledged r c.outstanding) (noteJudged .monitor x s))))
    else none
  | _, _ => none

/-- A record for its axis (R31, R117). When an append has faulted the axis at this moment while this record was the monitor's
next, the monitor may have judged it against the list as that append found it: the fault causes that the record finds there are
further faults. Otherwise the record is matched as the list stands. -/
def judgeRecord (x : Axis) (r : FeedbackRecord) (s : State) : State :=
  match foundBefore .engine x s with
  | none => matchRecord x r s
  | some found =>
    let t := chosen s
    if Config.judgedTogether s.choices then (faultsFoundIn found x r t).getD (matchRecord x r t) else matchRecord x r t

/-- A feedback record screened for its axis, then matched (R113). -/
def takeFeedbackRecord (r : FeedbackRecord) (s : State) : State :=
  match toIndex 128 r.axis.toNat with
  | none => raise (.unknownAxis r.axis (some r.ack)) s
  | some x =>
    if (ctxOf s x).state = .unconfigured then raise (.unknownAxis r.axis (some r.ack)) s
    else if s.fb.taken.contains x then raise (.duplicateRecord r.axis (some r.ack)) s
    else judgeRecord x r { s with fb := { s.fb with taken := x :: s.fb.taken } }

/-- The feedback monitor after a record: the frame in hand ends with its last record, and its set of axes with it (R112). -/
def FeedbackMonitor.settleFrame (m : FeedbackMonitor) : FeedbackMonitor :=
  match m.frames with
  | [] :: more => { frames := more, taken := [] }
  | _ => m

/-- FEEDBACK_RECORD (R31, R112, R117): the next record of the frame in hand. With no frame in hand the monitor does not take this
step (log entry 5). -/
def execFeedbackRecord (s : State) : Host.Outcome State Fault Refusal :=
  match s.fb.frames with
  | (r :: rest) :: more =>
    let t := takeFeedbackRecord r { s with fb := { s.fb with frames := rest :: more } }
    .next { t with fb := t.fb.settleFrame }
  | _ => .next s

/-- A feedback frame handed to the feedback monitor: it waits behind the frames that arrived before it (R112). A frame
without records gives the monitor nothing to take. -/
def takeFeedbackFrame (f : FeedbackFrame) (s : State) : State :=
  if f.records.isEmpty then s else { s with fb := { s.fb with frames := s.fb.frames ++ [f.records] } }

end Sys2Proof.Machine
end

