-- ==== Sys2Proof/Machine/Report.lean ====
section
/-! DEFINITION. The report frame (R159, R179 to R181): REPORT_TIMER_EXPIRY and C_PORT_SEND_DONE. -/

namespace Sys2Proof.Machine

/-- The number of axes in a state (R181). -/
def countIn (a : AxisState) (s : State) : Nat := (s.ctx.toList.filter (fun c => c.state == a)).length

/-- The status summary as the part stands, with `waiting` events left in the queue (R181). -/
def summaryOf (waiting : Nat) (s : State) : Summary :=
  { mode := s.req.mode, active := s.active.map CueGroup.number, staged := s.staged.map CueGroup.number, lost := s.ev.lost,
    dropped := s.req.dropped,
    counts := [countIn .unconfigured s, countIn .locating s, countIn .parked s, countIn .held s, countIn .tracking s,
               countIn .stopping s, countIn .faulted s],
    levels := s.lines.toList.map LineState.settled, late := s.cyc.late, waiting := waiting }

/-- The number of events that a report frame takes: as many as fit beside its answers (R180). -/
def eventsTaken (s : State) : Nat := Config.reportRoom - (s.req.answers.take Config.reportRoom).length

/-- The report frame built from the part as it stands (R180, R151). -/
def reportFrame (s : State) : ReportFrame :=
  { source := s.settings.node, seq := s.cyc.downSeq, summary := summaryOf (s.ev.queue.drop (eventsTaken s)).length s,
    answers := s.req.answers.take Config.reportRoom, events := s.ev.queue.take (eventsTaken s),
    lostStamp := s.ev.lostSets, droppedStamp := s.req.droppedSets }

/-- A report frame built, its answers and events taken from their queues, and handed to the upstream emitter (R179, R180). -/
def buildReport (s : State) : State :=
  handReport (reportFrame s)
    { s with req := { s.req with answers := s.req.answers.drop Config.reportRoom },
             ev := { s.ev with queue := s.ev.queue.drop (eventsTaken s) } }

/-- The report timer restarted with the period as it stands (R179). -/
def restartReportTimer (s : State) : State :=
  { s with ev := { s.ev with reportDue := s.now + s.settings.period * Config.ticksPerHalfMs } }

/-- REPORT_TIMER_EXPIRY (R179): at the moment at which the timer is due, or later. A report frame is built when the report
slot is empty. -/
def execReportTimerExpiry (s : State) : Host.Outcome State Fault Refusal :=
  let t := restartReportTimer (advanceTo s.ev.reportDue s)
  if t.up.slot.isNone then .next (buildReport t) else .next t

/-- The lost and manage-dropped flags as a report frame leaves the C-port: a flag that the frame carried set is cleared when
it has not been set since the frame was built (R159, log entry 13). -/
def clearReported (r : ReportFrame) (s : State) : State :=
  { s with
    ev := { s.ev with lost := s.ev.lost && !(r.summary.lost && decide (r.lostStamp = s.ev.lostSets)) }
    req := { s.req with dropped := s.req.dropped && !(r.summary.dropped && decide (r.droppedStamp = s.req.droppedSets)) } }

/-- The next frame chosen for the idle C-port transmitter (R158). -/
def UpEmitter.choose (u : UpEmitter) : UpEmitter :=
  match u.queue, u.slot with
  | f :: rest, _ => { u with tx := some (.forwarded f), queue := rest }
  | [], some r => { tx := some (.report r), queue := [], slot := none }
  | [], none => { u with tx := none }

/-- C_PORT_SEND_DONE (R158, R159). An idle transmitter sends nothing (log entry 5). -/
def execCPortSendDone (s : State) : Host.Outcome State Fault Refusal :=
  match s.up.tx with
  | none => .next s
  | some (.forwarded _) => .next { s with up := s.up.choose }
  | some (.report r) => .next (clearReported r { s with up := s.up.choose })

end Sys2Proof.Machine
end

