-- ==== Sys2Proof/Machine/Link.lean ====
section
/-! DEFINITION. The ports, the frame router and the downstream emitter (chapter 10): the steps that receive a frame, and
D_PORT_SEND_DONE. -/

namespace Sys2Proof.Machine

/-! ## Manage frames (R155, R161) -/

/-- The requests of accepted frames that are still unanswered (R161). -/
def unanswered (s : State) : Nat := (s.req.frames.map List.length).sum

/-- Whether a manage frame has room: the answers in the queue, the unanswered requests and its own do not exceed 16 (R161). -/
def manageFits (f : ManageFrame) (s : State) : Bool :=
  decide (s.req.answers.length + unanswered s + f.requests.length ≤ Config.answerRoom)

/-- A manage frame for the part accepted whole, or dropped whole with the manage-dropped flag set (R161). -/
def takeManageFrame (f : ManageFrame) (s : State) : State :=
  if manageFits f s then
    if f.requests.isEmpty then s else { s with req := { s.req with frames := s.req.frames ++ [f.requests] } }
  else { s with req := { s.req with dropped := true, droppedSets := s.req.droppedSets + 1 } }

/-- A foreign manage frame, by the mode at its classification (R155). -/
def takeForeignFrame (f : ManageFrame) (s : State) : State :=
  if s.req.mode = .inShow then raise (.foreignManageDropped f.hdr.dest .showMode f.hdr.source f.hdr.seq) s
  else handManage f s

/-! ## The router (R153, R154) -/

/-- A frame that the C-port hands to the router (R153). -/
def routeConsole (f : Frame) (s : State) : State :=
  match f with
  | .setpoint g => judgeConsoleFrame g s
  | .manage g =>
    if g.hdr.dest = 0 then s
    else if g.hdr.dest = s.settings.node then takeManageFrame g s
    else takeForeignFrame g s
  | .feedback _ => s
  | .report _ => s

/-- A frame that the D-port hands to the router (R154). -/
def routeDrive (f : Frame) (s : State) : State :=
  match f with
  | .feedback g => handForward (.feedback g) (takeFeedbackFrame g s)
  | .report g => handForward (.driveReport g) s
  | .setpoint _ => s
  | .manage _ => s

/-- A frame handed to the router by a port, at the port's classification (R153, R154). -/
def route (port : Port) (f : Frame) (s : State) : State :=
  match port with
  | .console => routeConsole f s
  | .drive => routeDrive f s

/-- The bytes that a port's receive buffer holds (R150). -/
def received (port : Port) (s : State) : List Byte :=
  match port with
  | .console => s.rxC
  | .drive => s.rxD

/-- The part as a frame leaves a port's receive buffer (R150). -/
def emptyBuffer (port : Port) (s : State) : State :=
  match port with
  | .console => { s with rxC := [] }
  | .drive => { s with rxD := [] }

/-! ## The steps -/

/-- CORRUPT_FRAME (R150): with the last bytes of a frame, what the receive buffer holds is checked. A frame that fails the link
check or the form check is discarded and changes nothing else. Bytes that pass are no corrupt frame: the port hands the frame
that they spell to the router, as any other (log entry 6). -/
def execCorruptFrame (port : Port) (bytes : List Byte) (s : State) : Host.Outcome State Fault Refusal :=
  match readFrame port (received port s ++ bytes) with
  | none => .next (emptyBuffer port s)
  | some f => .next (route port f (emptyBuffer port s))

/-- ROUTER_DISCARD (R153, R154): a frame of a kind or destination that the router does not hand on. What the router does with
the frame, `route` decides (log entry 6). -/
def execRouterDiscard (port : Port) (f : Frame) (s : State) : Host.Outcome State Fault Refusal :=
  .next (route port f (emptyBuffer port s))

/-- CONSOLE_SETPOINT_FRAME (R142). -/
def execConsoleSetpointFrame (moment : Nat) (f : SetpointFrame) (s : State) : Host.Outcome State Fault Refusal :=
  .next (routeConsole (.setpoint f) (emptyBuffer .console (advanceTo moment s)))

/-- FEEDBACK_FRAME (R154). -/
def execFeedbackFrame (f : FeedbackFrame) (s : State) : Host.Outcome State Fault Refusal :=
  .next (routeDrive (.feedback f) (emptyBuffer .drive s))

/-- DRIVE_REPORT_FRAME (R154). -/
def execDriveReportFrame (f : DriveReport) (s : State) : Host.Outcome State Fault Refusal :=
  .next (routeDrive (.report f) (emptyBuffer .drive s))

/-- MANAGE_FRAME (R161): the router's classification (R153) decides whether the frame is the part's. -/
def execManageFrame (moment : Nat) (f : ManageFrame) (s : State) : Host.Outcome State Fault Refusal :=
  .next (routeConsole (.manage f) (emptyBuffer .console (advanceTo moment s)))

/-- FOREIGN_MANAGE_FRAME (R155): the router's classification (R153) decides whether the frame is foreign. -/
def execForeignManageFrame (f : ManageFrame) (s : State) : Host.Outcome State Fault Refusal :=
  .next (routeConsole (.manage f) (emptyBuffer .console s))

/-- The next frame chosen for the idle D-port transmitter (R157). -/
def DownEmitter.choose (d : DownEmitter) : DownEmitter :=
  match d.slot, d.queue with
  | some f, _ => { d with tx := some (.setpoint f), slot := none }
  | none, f :: rest => { tx := some (.manage f), slot := none, queue := rest }
  | none, [] => { d with tx := none }

/-- D_PORT_SEND_DONE (R157). An idle transmitter sends nothing (log entry 5). -/
def execDPortSendDone (s : State) : Host.Outcome State Fault Refusal :=
  match s.down.tx with
  | none => .next s
  | some _ => .next { s with down := s.down.choose }

end Sys2Proof.Machine
end

