-- ==== Sys2Proof/Machine/Idle.lean ====
section
/-! DEFINITION. What the part does of its own accord when no step waits: the next step of each of its agents, by which the
engine, the feedback monitor, the request handler and the timers go on, else a tick of the clock (log entry 2). -/

namespace Sys2Proof.Machine

/-- The next step of the screening engine on the frame in hand (R43 to R46). -/
def engineWork (s : State) : List Instr :=
  match s.engine with
  | none => []
  | some e =>
    if !e.todo.isEmpty then [.screenConsoleRecord]
    else
      match allAxes.find? (fun x => decide (e.nextAxis ≤ x.val) && screenable s e x) with
      | some x => [.screenUnnamedAxis x]
      | none => if e.fixed.isEmpty then [.emission s.now] else [.outstandingAppend]

/-- The next step of the feedback monitor (R112). -/
def feedbackWork (s : State) : List Instr := if s.fb.frames.isEmpty then [] else [.feedbackRecord]

/-- The command of a request kind (section 10.8). -/
def requestStep (kind : Byte) : Instr :=
  match kind.toNat with
  | 1 => .mode
  | 2 => .getEntry
  | 3 => .getAxis
  | 4 => .getSettings
  | 5 => .setMask
  | 6 => .haltAxes
  | 7 => .clearFault
  | 8 => .restart
  | 9 => .putPair
  | 10 => .putInterlock
  | 11 => .putAxis
  | 12 => .eraseEntry
  | 13 => .putSettings
  | 14 => .lockEntry
  | 15 => .unlockEntry
  | 16 => .tare
  | 17 => .untare
  | 18 => .stageCue
  | 19 => .takeCue
  | 20 => .dropCue
  | _ => .unknownRequest

/-- The next step of the request handler (R162). -/
def requestWork (s : State) : List Instr :=
  match nextRequest s with
  | some (e, _) => [requestStep e.kind]
  | none => []

/-- Whether the deadline timer has expired (R147). -/
def deadlineDue (s : State) : Bool :=
  match s.cyc.cadence, s.cyc.timer, s.cyc.mark with
  | .waiting, true, some m => decide (m.moment + m.deadline ≤ s.now)
  | _, _, _ => false

/-- The timers that have expired: the deadline, the lines' held times, the report timer (R85, R147, R179). -/
def timerWork (s : State) : List Instr :=
  (if deadlineDue s then [.deadlineExpiry] else []) ++
  (allLines.filter (settleDue s)).map Instr.interlockSettle ++
  (if s.ev.reportDue ≤ s.now then [.reportTimerExpiry] else [])

/-- The steps that the part's own agents would take now. The end of a sending is not among them: it is the link's (log
entry 21). -/
def ownWork (s : State) : List Instr := timerWork s ++ engineWork s ++ feedbackWork s ++ requestWork s

/-- The step on an empty queue (log entry 2): the part's own steps queued, else one clock tick. -/
def idle (s : State) : State :=
  if (ownWork s).isEmpty then { s with now := s.now + 1 } else { s with pending := ownWork s }

end Sys2Proof.Machine
end

