-- ==== Sys2Proof/Machine/Interlock.lean ====
section
/-! DEFINITION. The interlock input block (R84, R85): INTERLOCK_RAW_CHANGE and INTERLOCK_SETTLE. -/

namespace Sys2Proof.Machine

/-- A raw level taken at a line (R85): equal to the settled level it cancels the pending level, else it becomes the pending
level and its held time starts from 0. -/
def rawChanged (l : Line) (level : Level) (s : State) : State :=
  let x := tget s.lines l
  let y : LineState :=
    if x.settled = .known level then { x with raw := level, pending := none }
    else { x with raw := level, pending := some level, since := s.now }
  { s with lines := tset s.lines l y }

/-- INTERLOCK_RAW_CHANGE (R85): a line with a settle time of 0 settles as the change arrives. A level that the input already
has is no change. -/
def execInterlockRawChange (moment : Nat) (l : Line) (level : Level) (s : State) : Host.Outcome State Fault Refusal :=
  let t := advanceTo moment s
  if (tget t.lines l).raw = level then .next t else .next (settleIfDue l (rawChanged l level t))

/-- INTERLOCK_SETTLE (R85): the held time of the pending level reaches the settle time, at that moment or later. A line
without a pending level does not settle (log entries 1 and 5). -/
def execInterlockSettle (l : Line) (s : State) : Host.Outcome State Fault Refusal :=
  match (tget s.lines l).pending with
  | none => .next s
  | some _ => .next (settleLine l (advanceTo ((tget s.lines l).since + settleTicks s l) s))

end Sys2Proof.Machine
end

