-- ==== Sys2Proof/Machine/Management.lean ====
section
/-! DEFINITION. The requests on the part as a whole: MODE, SET_MASK, RESTART, the settings record, and a request of an unknown
kind (R160, R165, R170 to R173, R176). -/

namespace Sys2Proof.Machine

/-! ## MODE (R165) -/

/-- Whether any axis is TRACKING or STOPPING. -/
def anyMoving (s : State) : Bool := someAxis AxisState.moving s.ctx

/-- An accepted MODE: the mode set, and a tare in flight aborted (R136, R165). -/
def acceptMode (e : Envelope) (target : Mode) (s : State) : State :=
  accept e (abortTare .mode { s with req := { s.req with mode := target } })

/-- MODE judged against the mode as it stands (R165). -/
def judgeMode (e : Envelope) (target : Mode) (s : State) : State :=
  match s.req.mode, target with
  | _, .start => refuseField e 1 s
  | .start, .commission => acceptMode e target s
  | .start, .inShow => refuse e .wrongMode s
  | .commission, .inShow =>
    if anyMoving s then refuse e .axisMoving s
    else if s.tare.isSome then refuse e .busy s
    else acceptMode e target s
  | .inShow, .commission => if anyMoving s then refuse e .axisMoving s else acceptMode e target s
  | .commission, .commission => acceptMode e target s
  | .inShow, .inShow => acceptMode e target s

/-- One MODE request. -/
def runMode (e : Envelope) : State → State := judged e .general (decodeMode e.body) (judgeMode e)

/-- MODE (R165). -/
def execMode (s : State) : Host.Outcome State Fault Refusal := carryOut 1 runMode s

/-! ## SET_MASK (R176, R177) -/

/-- The latch of a retained class offered to the queue and emptied, when the class goes from masked to unmasked (R176). -/
def EventUnit.unmask (old : BitVec 7) (u : EventUnit) (k : Fin 4) : EventUnit :=
  if old.getLsbD k && !u.mask.getLsbD k then
    match tget u.latches k with
    | some held => ({ u with latches := tset u.latches k none }).offer held
    | none => u
  else u

/-- The mask replaced, with the latched events of the unmasked classes offered in ascending class number (R176). -/
def EventUnit.setMask (m : BitVec 7) (u : EventUnit) : EventUnit :=
  (List.finRange 4).foldl (EventUnit.unmask u.mask) { u with mask := m }

/-- One SET_MASK request. -/
def runSetMask (e : Envelope) : State → State :=
  judged e .general (decodeMask e.body) (fun m s => accept e { s with ev := s.ev.setMask m })

/-- SET_MASK (R176). -/
def execSetMask (s : State) : Host.Outcome State Fault Refusal := carryOut 5 runSetMask s

/-! ## RESTART (R173) -/

/-- A context after a RESTART (R20, R41). -/
def AxisCtx.restarted (c : AxisCtx) : AxisCtx := if c.state = .unconfigured then c else AxisCtx.locating

/-- The cycle monitor after a RESTART (R149): a frame in hand is still screened to its end (log entry 24). -/
def CycleMonitor.restarted (m : CycleMonitor) : CycleMonitor :=
  { m with cadence := if m.cadence = .screening then .screening else .stopped,
           mark := none, timer := false, conSeq := none, late := 0 }

/-- The event unit after a RESTART (R174). -/
def EventUnit.restarted (u : EventUnit) : EventUnit :=
  { u with queue := [], latches := Vector.replicate 4 none, lost := false }

/-- An accepted RESTART taken by each owner, before the lines that have no settle time settle (R173). -/
def restartOwners (s : State) : State :=
  unsettleLines (mapCtx (fun _ c => c.restarted)
    { s with
      req := { s.req with mode := .commission, answers := [], dropped := false }
      pairTab := tmap (fun _ e => { e with warning := false }) s.pairTab
      active := none
      staged := none
      tare := none
      cyc := s.cyc.restarted
      engine := s.engine.map (fun e => { e with restarted := true })
      ev := s.ev.restarted })

/-- RESTART judged (R173). -/
def judgeRestart (e : Envelope) (s : State) : State :=
  if anyMoving s then refuse e .axisMoving s else accept e (settleAllDue (restartOwners s))

/-- One RESTART request. -/
def runRestart (e : Envelope) : State → State := judged e .general (decodeNone e.body) (fun _ => judgeRestart e)

/-- RESTART (R173). -/
def execRestart (s : State) : Host.Outcome State Fault Refusal := carryOut 8 runRestart s

/-! ## The settings record (R170 to R172) -/

/-- One GET_SETTINGS request. -/
def runGetSettings (e : Envelope) : State → State :=
  judged e .general (decodeNone e.body) (fun _ s => answer e .accepted (.settings s.settings) s)

/-- GET_SETTINGS (R170). -/
def execGetSettings (s : State) : Host.Outcome State Fault Refusal := carryOut 4 runGetSettings s

/-- A list cut to its newest entries (R116). -/
def AxisCtx.trimmed (lagDepth : Nat) (c : AxisCtx) : AxisCtx :=
  { c with outstanding := c.outstanding.drop (c.outstanding.length - lagDepth) }

/-- An accepted PUT_SETTINGS: the record written, and the outstanding lists trimmed to its lag depth (R116, R172). -/
def writeSettings (r : Settings) (s : State) : State :=
  mapCtx (fun _ c => c.trimmed r.lagDepth) { s with settings := r }

/-- PUT_SETTINGS judged (R172). -/
def judgePutSettings (e : Envelope) (r : Settings) (s : State) : State :=
  match firstBad r.checks with
  | some field => refuseField e field s
  | none => if someAxis AxisState.inCue s.ctx then refuse e .axisMoving s else accept e (writeSettings r s)

/-- One PUT_SETTINGS request. -/
def runPutSettings (e : Envelope) : State → State := judged e .structural (decodeSettings e.body) (judgePutSettings e)

/-- PUT_SETTINGS (R172). -/
def execPutSettings (s : State) : Host.Outcome State Fault Refusal := carryOut 13 runPutSettings s

/-! ## Unknown kinds (R160) -/

/-- UNKNOWN_REQUEST (R160). When the handler's next request is of one of the twenty kinds, or there is none, this step is not
one that the handler takes (log entry 5). -/
def execUnknownRequest (s : State) : Host.Outcome State Fault Refusal :=
  match nextRequest s with
  | some (e, t) => if knownKind e.kind then .next s else .next (refuse e .unknownRequest t)
  | none => .next s

end Sys2Proof.Machine
end

