-- ==== Sys2Proof/Machine/Reset.lean ====
section
/-! DEFINITION. POWER_ON_RESET (R41, R87). -/

namespace Sys2Proof.Machine

/-- POWER_ON_RESET: every value at its power-on value, the raw levels as the pins stand, and the first settle of every line as
the reset ends (R87). The steps that wait go on waiting: they are what reaches the part after the reset (log entry 7). The free
values asked for stay asked for (log entry 29). -/
def execPowerOnReset (s : State) : Host.Outcome State Fault Refusal :=
  .next (settleAllDue { State.reset with
    pending := s.pending, choices := s.choices, lines := tmap (fun _ x => LineState.unsettledAt x.raw 0) s.lines })

end Sys2Proof.Machine
end

