-- ==== Sys2Proof/Machine/TableRequests.lean ====
section
/-! DEFINITION. The requests on the tables: GET_ENTRY, PUT_AXIS, PUT_PAIR, PUT_INTERLOCK, ERASE_ENTRY, LOCK_ENTRY and
UNLOCK_ENTRY (R9 to R17, R67 to R71, R91 to R93, R168 to R170). -/

namespace Sys2Proof.Machine

/-! ## Writing entries -/

/-- The axis table with one entry replaced. -/
def setAxisEntry (x : Axis) (v : AxisEntry) (s : State) : State := { s with axisTab := tset s.axisTab x v }

/-- The pair table with one entry replaced. -/
def setPairEntry (i : PairIndex) (v : PairEntry) (s : State) : State := { s with pairTab := tset s.pairTab i v }

/-- The interlock table with one entry replaced. -/
def setLineEntry (l : Line) (v : InterlockEntry) (s : State) : State := { s with lineTab := tset s.lineTab l v }

/-! ## GET_ENTRY (R71, R93, R170) -/

/-- GET_ENTRY judged: the entry as it stands. -/
def judgeGetEntry (e : Envelope) (ref : TableCode × Nat) (s : State) : State :=
  match ref.1 with
  | .axisTable => indexed 128 e ref.2 (fun x t => answer e .accepted (.axisEntry x (tget t.axisTab x)) t) s
  | .pairTable => indexed 512 e ref.2 (fun i t => answer e .accepted (.pairEntry i (tget t.pairTab i)) t) s
  | .lineTable =>
    indexed 16 e ref.2 (fun l t => answer e .accepted (.lineEntry l (tget t.lineTab l) (tget t.lines l).settled) t) s

/-- One GET_ENTRY request. -/
def runGetEntry (e : Envelope) : State → State := judged e .general (decodeEntryRef e.body) (judgeGetEntry e)

/-- GET_ENTRY (R170). -/
def execGetEntry (s : State) : Host.Outcome State Fault Refusal := carryOut 2 runGetEntry s

/-! ## PUT_AXIS (R9 to R14) -/

/-- The context of an axis after an accepted PUT_AXIS (R14). -/
def AxisCtx.rewritten (c : AxisCtx) : AxisCtx := if c.state = .unconfigured then AxisCtx.locating else c.emptyRing

/-- An accepted PUT_AXIS (R14). -/
def writeAxis (x : Axis) (b : AxisBody) (s : State) : State :=
  setCtx x (ctxOf s x).rewritten (setAxisEntry x { tget s.axisTab x with body := some b } s)

/-- The screened position of a PARKED axis that new limits exclude (R12). -/
def parkedOutside (c : AxisCtx) (b : AxisBody) : Option Int :=
  match c.state, c.pos with
  | .parked, some p => if b.inLimits p then none else some p
  | _, _ => none

/-- Checks 3 to 6 of PUT_AXIS, and its effect (R9). -/
def judgeAxisBody (e : Envelope) (x : Axis) (b : AxisBody) (s : State) : State :=
  match firstBad b.checks with
  | some field => refuseField e field s
  | none =>
    if (ctxOf s x).state.inCue then refuse e .axisMoving s
    else if underTare s x then refuse e .busy s
    else
      match parkedOutside (ctxOf s x) b with
      | some p => answer e .outOfLimits (.outOfLimits p) s
      | none => accept e (writeAxis x b s)

/-- PUT_AXIS judged (R9). -/
def judgePutAxis (e : Envelope) (op : Nat × AxisBody) : State → State :=
  indexed 128 e op.1 (fun x s =>
    guarded e .axisTable x.val (tget s.axisTab x).locked (judgeAxisBody e x op.2) s)

/-- One PUT_AXIS request. -/
def runPutAxis (e : Envelope) : State → State := judged e .general (decodePutAxis e.body) (judgePutAxis e)

/-- PUT_AXIS (R14). -/
def execPutAxis (s : State) : Host.Outcome State Fault Refusal := carryOut 11 runPutAxis s

/-! ## PUT_PAIR (R67 to R69) -/

/-- Whether a pair body names the same upper axis and the same lower axis. -/
def PairBody.sameAxes (a b : PairBody) : Bool := a.upper == b.upper && a.lower == b.lower

/-- Another present entry that holds the same pair (R67, R68). -/
def duplicateOf (s : State) (i : PairIndex) (b : PairBody) : Option PairIndex :=
  ((tzip s.pairTab).find? (fun je => je.1 != i && je.2.body.any (fun r => r.sameAxes b))).map Prod.fst

/-- An accepted PUT_PAIR (R69). -/
def writePair (i : PairIndex) (b : PairBody) (s : State) : State :=
  setPairEntry i { tget s.pairTab i with body := some b, warning := false } s

/-- Checks 3 and 4 of PUT_PAIR, and its effect (R67). -/
def judgePairBody (e : Envelope) (i : PairIndex) (f : PairFields) (s : State) : State :=
  match checkedBody f.checks f.body with
  | .error field => refuseField e field s
  | .ok b =>
    match duplicateOf s i b with
    | some j => answer e .duplicatePair (.duplicatePair j) s
    | none => accept e (writePair i b s)

/-- PUT_PAIR judged (R67). -/
def judgePutPair (e : Envelope) (op : Nat × PairFields) : State → State :=
  indexed 512 e op.1 (fun i s => guarded e .pairTable i.val (tget s.pairTab i).locked (judgePairBody e i op.2) s)

/-- One PUT_PAIR request. -/
def runPutPair (e : Envelope) : State → State := judged e .general (decodePutPair e.body) (judgePutPair e)

/-- PUT_PAIR (R69). -/
def execPutPair (s : State) : Host.Outcome State Fault Refusal := carryOut 9 runPutPair s

/-! ## PUT_INTERLOCK (R91, R92) -/

/-- An accepted PUT_INTERLOCK: a pending level that has held for the new settle time settles as the write is taken (R86,
R92). -/
def writeLine (l : Line) (b : InterlockBody) (s : State) : State :=
  settleIfDue l (setLineEntry l { tget s.lineTab l with body := some b } s)

/-- Check 3 of PUT_INTERLOCK, and its effect (R91). -/
def judgeLineBody (e : Envelope) (l : Line) (f : InterlockFields) (s : State) : State :=
  match checkedBody f.checks f.body with
  | .error field => refuseField e field s
  | .ok b => accept e (writeLine l b s)

/-- PUT_INTERLOCK judged (R91). -/
def judgePutInterlock (e : Envelope) (op : Nat × InterlockFields) : State → State :=
  indexed 16 e op.1 (fun l s => guarded e .lineTable l.val (tget s.lineTab l).locked (judgeLineBody e l op.2) s)

/-- One PUT_INTERLOCK request. -/
def runPutInterlock (e : Envelope) : State → State :=
  judged e .general (decodePutInterlock e.body) (judgePutInterlock e)

/-- PUT_INTERLOCK (R92). -/
def execPutInterlock (s : State) : Host.Outcome State Fault Refusal := carryOut 10 runPutInterlock s

/-! ## ERASE_ENTRY (R16, R17, R70, R93) -/

/-- An accepted erase of an axis entry (R17). -/
def eraseAxis (x : Axis) (s : State) : State :=
  let t := setCtx x AxisCtx.cleared (setAxisEntry x { body := none, locked := false } s)
  { t with active := t.active.map (CueGroup.without x), staged := t.staged.map (CueGroup.without x) }

/-- An accepted erase of a pair entry (R70). -/
def erasePair (i : PairIndex) (s : State) : State :=
  setPairEntry i { body := none, locked := false, warning := false } s

/-- An accepted erase of an interlock entry: the line's settle time becomes 0 (R86, R93). -/
def eraseLine (l : Line) (s : State) : State := settleIfDue l (setLineEntry l { body := none, locked := false } s)

/-- Checks 3 to 5 of ERASE_ENTRY on the axis table, and its effect (R16). -/
def judgeEraseAxis (e : Envelope) (x : Axis) (s : State) : State :=
  if (tget s.axisTab x).body.isNone then refuse e .notConfigured s
  else if (ctxOf s x).state.inCue then refuse e .axisMoving s
  else if underTare s x then refuse e .busy s
  else accept e (eraseAxis x s)

/-- Check 3 of ERASE_ENTRY on the pair table, and its effect (R70). -/
def judgeErasePair (e : Envelope) (i : PairIndex) (s : State) : State :=
  if (tget s.pairTab i).body.isNone then refuse e .notConfigured s else accept e (erasePair i s)

/-- Check 3 of ERASE_ENTRY on the interlock table, and its effect (R93). -/
def judgeEraseLine (e : Envelope) (l : Line) (s : State) : State :=
  if (tget s.lineTab l).body.isNone then refuse e .notConfigured s else accept e (eraseLine l s)

/-- ERASE_ENTRY judged (R16, R70, R93). -/
def judgeErase (e : Envelope) (ref : TableCode × Nat) (s : State) : State :=
  match ref.1 with
  | .axisTable =>
    indexed 128 e ref.2 (fun x t => guarded e .axisTable x.val (tget t.axisTab x).locked (judgeEraseAxis e x) t) s
  | .pairTable =>
    indexed 512 e ref.2 (fun i t => guarded e .pairTable i.val (tget t.pairTab i).locked (judgeErasePair e i) t) s
  | .lineTable =>
    indexed 16 e ref.2 (fun l t => guarded e .lineTable l.val (tget t.lineTab l).locked (judgeEraseLine e l) t) s

/-- One ERASE_ENTRY request. -/
def runEraseEntry (e : Envelope) : State → State := judged e .general (decodeEntryRef e.body) (judgeErase e)

/-- ERASE_ENTRY (R17, R70, R93). -/
def execEraseEntry (s : State) : Host.Outcome State Fault Refusal := carryOut 12 runEraseEntry s

/-! ## LOCK_ENTRY and UNLOCK_ENTRY (R169) -/

/-- The locked flag of an axis entry written, when the entry is present. -/
def lockAxis (flag : Bool) (e : Envelope) (x : Axis) (s : State) : State :=
  if (tget s.axisTab x).body.isNone then refuse e .notConfigured s
  else accept e (setAxisEntry x { tget s.axisTab x with locked := flag } s)

/-- The locked flag of a pair entry written, when the entry is present. -/
def lockPair (flag : Bool) (e : Envelope) (i : PairIndex) (s : State) : State :=
  if (tget s.pairTab i).body.isNone then refuse e .notConfigured s
  else accept e (setPairEntry i { tget s.pairTab i with locked := flag } s)

/-- The locked flag of an interlock entry written, when the entry is present. -/
def lockLine (flag : Bool) (e : Envelope) (l : Line) (s : State) : State :=
  if (tget s.lineTab l).body.isNone then refuse e .notConfigured s
  else accept e (setLineEntry l { tget s.lineTab l with locked := flag } s)

/-- LOCK_ENTRY (`flag` set) or UNLOCK_ENTRY (clear) judged (R169). -/
def judgeLock (flag : Bool) (e : Envelope) (ref : TableCode × Nat) (s : State) : State :=
  match ref.1 with
  | .axisTable => indexed 128 e ref.2 (lockAxis flag e) s
  | .pairTable => indexed 512 e ref.2 (lockPair flag e) s
  | .lineTable => indexed 16 e ref.2 (lockLine flag e) s

/-- One LOCK_ENTRY or UNLOCK_ENTRY request. -/
def runLock (flag : Bool) (e : Envelope) : State → State :=
  judged e .structural (decodeEntryRef e.body) (judgeLock flag e)

/-- LOCK_ENTRY (R169). -/
def execLockEntry (s : State) : Host.Outcome State Fault Refusal := carryOut 14 (runLock true) s

/-- UNLOCK_ENTRY (R169). -/
def execUnlockEntry (s : State) : Host.Outcome State Fault Refusal := carryOut 15 (runLock false) s

end Sys2Proof.Machine
end

