-- ==== Sys2Proof/Machine/Dispatch.lean ====
section
/-! DEFINITION. The meaning of each command: one direct call per row of spec/opcode_table.json. -/

namespace Sys2Proof.Machine

def exec (i : Instr) (s : State) : Host.Outcome State Fault Refusal :=
  match i with
  | .powerOnReset => Sys2Proof.Machine.execPowerOnReset s
  | .corruptFrame port bytes => Sys2Proof.Machine.execCorruptFrame port bytes s
  | .routerDiscard port frame => Sys2Proof.Machine.execRouterDiscard port frame s
  | .consoleSetpointFrame moment frame => Sys2Proof.Machine.execConsoleSetpointFrame moment frame s
  | .deadlineExpiry => Sys2Proof.Machine.execDeadlineExpiry s
  | .screenConsoleRecord => Sys2Proof.Machine.execScreenConsoleRecord s
  | .screenUnnamedAxis axis => Sys2Proof.Machine.execScreenUnnamedAxis axis s
  | .outstandingAppend => Sys2Proof.Machine.execOutstandingAppend s
  | .emission moment => Sys2Proof.Machine.execEmission moment s
  | .feedbackFrame frame => Sys2Proof.Machine.execFeedbackFrame frame s
  | .driveReportFrame frame => Sys2Proof.Machine.execDriveReportFrame frame s
  | .feedbackRecord => Sys2Proof.Machine.execFeedbackRecord s
  | .interlockRawChange moment line level => Sys2Proof.Machine.execInterlockRawChange moment line level s
  | .interlockSettle line => Sys2Proof.Machine.execInterlockSettle line s
  | .reportTimerExpiry => Sys2Proof.Machine.execReportTimerExpiry s
  | .dPortSendDone => Sys2Proof.Machine.execDPortSendDone s
  | .cPortSendDone => Sys2Proof.Machine.execCPortSendDone s
  | .manageFrame moment frame => Sys2Proof.Machine.execManageFrame moment frame s
  | .foreignManageFrame frame => Sys2Proof.Machine.execForeignManageFrame frame s
  | .mode => Sys2Proof.Machine.execMode s
  | .getEntry => Sys2Proof.Machine.execGetEntry s
  | .getAxis => Sys2Proof.Machine.execGetAxis s
  | .getSettings => Sys2Proof.Machine.execGetSettings s
  | .setMask => Sys2Proof.Machine.execSetMask s
  | .haltAxes => Sys2Proof.Machine.execHaltAxes s
  | .clearFault => Sys2Proof.Machine.execClearFault s
  | .restart => Sys2Proof.Machine.execRestart s
  | .putPair => Sys2Proof.Machine.execPutPair s
  | .putInterlock => Sys2Proof.Machine.execPutInterlock s
  | .putAxis => Sys2Proof.Machine.execPutAxis s
  | .eraseEntry => Sys2Proof.Machine.execEraseEntry s
  | .putSettings => Sys2Proof.Machine.execPutSettings s
  | .lockEntry => Sys2Proof.Machine.execLockEntry s
  | .unlockEntry => Sys2Proof.Machine.execUnlockEntry s
  | .tare => Sys2Proof.Machine.execTare s
  | .untare => Sys2Proof.Machine.execUntare s
  | .stageCue => Sys2Proof.Machine.execStageCue s
  | .takeCue => Sys2Proof.Machine.execTakeCue s
  | .dropCue => Sys2Proof.Machine.execDropCue s
  | .unknownRequest => Sys2Proof.Machine.execUnknownRequest s

end Sys2Proof.Machine
end

