-- ==== Sys2Proof/Machine/Layout.lean ====
section
/-! DEFINITION. The bytes of everything that the part builds and sends (R151, sections 10.6 to 10.10): downstream setpoint
frames, report frames, answers, events, the axis context and the status summary. -/

namespace Sys2Proof.Machine

/-! ## Fields -/

/-- An unsigned value in one byte. -/
def byteOf (n : Nat) : Byte := BitVec.ofNat 8 n

/-- A truth value as a flag bit of a byte. -/
def flagBit (bit : Nat) (b : Bool) : Byte := if b then BitVec.ofNat 8 (2 ^ bit) else 0

/-- A signed 16-bit field. -/
def int16 (x : Int) : List Byte := bytes16 (BitVec.ofInt 16 x)

/-- A signed 32-bit field. -/
def int32 (x : Int) : List Byte := bytes32 (BitVec.ofInt 32 x)

/-- An unsigned 16-bit field. -/
def nat16 (n : Nat) : List Byte := bytes16 (BitVec.ofNat 16 n)

/-! ## Codes -/

/-- The code of a mode. -/
def Mode.code : Mode → Byte
  | .start => 0
  | .commission => 1
  | .inShow => 2

/-- The code of a result (section 10.8). -/
def Result.code : Result → Byte
  | .accepted => 0
  | .wrongMode => 1
  | .isProtected => 2
  | .badField => 3
  | .badIndex => 4
  | .duplicatePair => 5
  | .axisMoving => 6
  | .outOfLimits => 7
  | .notPositioned => 8
  | .notConfigured => 9
  | .axisFaulted => 10
  | .notFaulted => 11
  | .notParked => 12
  | .pendingFull => 13
  | .nothingPending => 14
  | .busy => 15
  | .noLoadCell => 16
  | .unknownRequest => 17

/-- The code of a table (section 10.8). -/
def TableCode.code : TableCode → Byte
  | .axisTable => 1
  | .pairTable => 2
  | .lineTable => 3

/-- The code of a command (section 10.7). -/
def Command.code : Command → Byte
  | .holdBrake => 1
  | .follow => 2
  | .quickstop => 3

/-- The code of an axis state (section 10.10). -/
def AxisState.code : AxisState → Byte
  | .unconfigured => 0
  | .locating => 1
  | .parked => 2
  | .held => 3
  | .tracking => 4
  | .stopping => 5
  | .faulted => 6

/-- The code of a stop destination: a state code. -/
def StopDest.code : StopDest → Byte
  | .parked => 2
  | .held => 3

/-- The code of a stop cause. -/
def StopCause.code : StopCause → Byte
  | .pair => 1
  | .limit => 2
  | .interlock => 3
  | .diverged => 4
  | .missingRecord => 5
  | .consoleLate => 6
  | .stopRequest => 7
  | .snag => 8
  | .slack => 9
  | .released => 10
  | .taken => 11

/-- The code of a fault cause. -/
def FaultCause.code : FaultCause → Byte
  | .outOfLimits => 16
  | .noDrive => 17
  | .feedbackLost => 18
  | .followingError => 19
  | .driveFault => 20
  | .drivePower => 21
  | .brake => 22
  | .overload => 23

/-- The code of the cause that AXIS_STOPPED carries. -/
def LeaveCause.code : LeaveCause → Byte
  | .stop c => c.code
  | .fault c => c.code

/-- The code of a last outcome. -/
def ScreenOutcome.code : ScreenOutcome → Byte
  | .none => 0
  | .pass => 1
  | .clampAccel => 2
  | .clampSpeed => 3
  | .ramp => 4
  | .refused => 5
  | .idle => 6

/-- The code of a level. -/
def levelCode : Level → Byte
  | .low => 0
  | .high => 1

/-- The code of a settled level. -/
def Settled.code : Settled → Byte
  | .known level => levelCode level
  | .unsettled => 2

/-- The code of an assertion. -/
def Assertion.code : Assertion → Byte
  | .deasserted => 0
  | .asserted => 1
  | .noEntry => 2

/-- The code of the reason of TARE_BAD. -/
def TareAbort.code : TareAbort → Byte
  | .leftParked => 1
  | .mode => 2

/-- The code of the reason of FOREIGN_MANAGE_DROPPED. -/
def DropReason.code : DropReason → Byte
  | .showMode => 1
  | .emitterFull => 2

/-! ## Table bodies (section 10.9) -/

/-- A load section. -/
def LoadSection.bytes (l : LoadSection) : List Byte :=
  int16 l.gain ++ int16 l.tareOffset ++ int32 l.overload ++ int32 l.slack ++ int32 l.snagBand ++ [byteOf l.filterLen]

/-- An axis body, 41 or 58 bytes; flag bits 1 to 7 are 0 (log entry 31). -/
def AxisBody.bytes (b : AxisBody) : List Byte :=
  [flagBit 0 b.load.isSome] ++
  [b.lower, b.upper, b.vmax, b.amax, b.sdec, b.hang, b.crown, b.followTol, b.captureWin, b.trackWin].flatMap int32 ++
  (match b.load with
   | none => []
   | some l => l.bytes)

/-- A pair body, 10 bytes. -/
def PairBody.bytes (b : PairBody) : List Byte := [byteOf b.upper.val, byteOf b.lower.val] ++ int32 b.gap ++ int32 b.warn

/-- An axis set, as an axis list. -/
def AxisSet.bytes : AxisSet → List Byte
  | .all => [255]
  | .list axes => byteOf axes.length :: axes.map (fun a => byteOf a.val)

/-- The action code and the speed_cap field of an interlock body. -/
def Action.bytes : Action → List Byte
  | .halt => [1, 0, 0]
  | .slow cap => 2 :: int16 cap
  | .noDown => [3, 0, 0]
  | .noUp => [4, 0, 0]

/-- An interlock body. -/
def InterlockBody.bytes (b : InterlockBody) : List Byte :=
  [levelCode b.activeLevel] ++ b.action.bytes ++ [byteOf b.settleTime] ++ b.axes.bytes

/-- A settings body, 7 bytes. -/
def Settings.bytes (r : Settings) : List Byte :=
  [r.node, byteOf r.period, byteOf r.grace, byteOf r.lagDepth] ++ int16 r.commissionCap ++ [byteOf r.brakeSettle]

/-! ## The axis context (section 10.10) -/

/-- The detail of a fault, after its cause. -/
def AxisFault.detail : AxisFault → List Byte
  | .outOfLimits actual => int32 actual
  | .noDrive => []
  | .feedbackLost => []
  | .followingError seq screened actual => bytes16 seq ++ int32 screened ++ int32 actual
  | .driveFault code => [code]
  | .drivePower => []
  | .brake => []
  | .overload load => int32 load

/-- A fault detail padded with 0 to 10 bytes. -/
def AxisFault.padded (f : AxisFault) : List Byte := f.detail ++ List.replicate (10 - f.detail.length) 0

/-- The status byte of a drive status. Bits without a meaning are sent as 0 here and in the other flag bytes that the part builds:
DEDUCED, log entry 31. -/
def DriveStatus.byte (d : DriveStatus) : Byte := flagBit 0 d.ready ||| flagBit 1 d.brakeReleased ||| flagBit 2 d.powerOk

/-- The presence byte of a context. -/
def AxisCtx.presenceByte (c : AxisCtx) : Byte :=
  flagBit 0 c.pos.isSome ||| flagBit 1 c.lastReq.isSome ||| flagBit 2 c.cause.isSome ||| flagBit 3 c.dest.isSome |||
  flagBit 4 c.actual.isSome ||| flagBit 5 c.filtered.isSome ||| flagBit 6 c.reference.isSome ||| flagBit 7 c.fault.isSome

/-- The flags byte of a context; bits 3 to 7 are 0 (log entry 31). -/
def AxisCtx.flagsByte (c : AxisCtx) : Byte := flagBit 0 c.capture ||| flagBit 1 c.acked ||| flagBit 2 c.clampRun

/-- One entry of an outstanding list, 8 bytes; flag bits 1 to 7 are 0 (log entry 31). -/
def OutEntry.bytes (m : OutEntry) : List Byte :=
  bytes16 m.seq ++ [m.cmd.code, flagBit 0 m.pos.isSome] ++ int32 (m.pos.getD 0)

/-- Bytes 0 to 42 of a context: a field that is absent is sent as 0. -/
def AxisCtx.fixedBytes (c : AxisCtx) : List Byte :=
  [c.state.code, c.presenceByte, c.flagsByte] ++ int32 (c.pos.getD 0) ++ int16 c.step ++ int32 (c.lastReq.getD 0) ++
  [(c.cause.map StopCause.code).getD 0, (c.dest.map StopDest.code).getD 0] ++ int32 (c.actual.getD 0) ++
  [(c.status.map DriveStatus.byte).getD 0, (c.status.map DriveStatus.code).getD 0] ++
  int32 (c.filtered.getD 0) ++ int32 (c.reference.getD 0) ++ [byteOf c.settle, c.outcome.code] ++
  (match c.fault with
   | none => List.replicate 12 0
   | some r => [r.what.cause.code, byteOf r.further] ++ r.what.padded)

/-- A context in the answer to GET_AXIS. -/
def AxisCtx.bytes (c : AxisCtx) : List Byte :=
  c.fixedBytes ++ byteOf c.outstanding.length :: c.outstanding.flatMap OutEntry.bytes ++
  byteOf c.ring.length :: c.ring.flatMap int32

/-! ## Answers (sections 10.8 and 10.10) -/

/-- The opening of a GET_ENTRY answer: table code, index and flags, of which bits 3 to 7 are 0 (log entry 31). -/
def entryOpening (table : TableCode) (index : Nat) (present locked warning : Bool) : List Byte :=
  [table.code] ++ nat16 index ++ [flagBit 0 present ||| flagBit 1 locked ||| flagBit 2 warning]

/-- The body of an answer. -/
def AnswerBody.bytes : AnswerBody → List Byte
  | .empty => []
  | .badField field => [byteOf field]
  | .outOfLimits pos => int32 pos
  | .duplicatePair index => nat16 index.val
  | .axis a => [byteOf a.val]
  | .axisEntry index v =>
    entryOpening .axisTable index.val v.body.isSome v.locked false ++ (v.body.map AxisBody.bytes).getD []
  | .pairEntry index v =>
    entryOpening .pairTable index.val v.body.isSome v.locked v.warning ++ (v.body.map PairBody.bytes).getD []
  | .lineEntry index v settled =>
    entryOpening .lineTable index.val v.body.isSome v.locked false ++ (v.body.map InterlockBody.bytes).getD [] ++
    [settled.code]
  | .context c _ => c.bytes
  | .settings r => r.bytes
  | .staged axes => [byteOf axes]
  | .taken cue counted others => bytes16 cue ++ [byteOf counted, byteOf others]
  | .dropped cue => [flagBit 0 cue.isSome] ++ bytes16 (cue.getD 0)
  | .halted stopped disarmed => [byteOf stopped, byteOf disarmed]
  | .tareStage stage => [byteOf stage]

/-- An answer envelope. -/
def Answer.bytes (a : Answer) : List Byte :=
  bytes16 a.tag ++ [a.kind, a.result.code] ++ nat16 a.body.bytes.length ++ a.body.bytes

/-! ## Events (section 10.10) -/

/-- The kind code of an event. -/
def Event.kindCode : Event → Byte
  | .axisFaulted .. => 1
  | .axisStopped .. => 2
  | .interlockChanged .. => 3
  | .tareDone .. => 4
  | .tareBad .. => 5
  | .consoleLate .. => 6
  | .consoleResumed .. => 7
  | .frameEarly .. => 8
  | .frameStale .. => 9
  | .sequenceGap .. => 10
  | .unknownAxis .. => 11
  | .duplicateRecord .. => 12
  | .strayFeedback .. => 13
  | .foreignManageDropped .. => 14
  | .clearanceWarning .. => 15
  | .protection .. => 16
  | .clampBegin .. => 17
  | .axisLocated .. => 18

/-- The subject of an event; one that the layout marks none is 0. -/
def Event.subject : Event → Nat
  | .axisFaulted a .. => a.val
  | .axisStopped a .. => a.val
  | .interlockChanged l .. => l.val
  | .tareDone a .. => a.val
  | .tareBad a .. => a.val
  | .consoleLate .. => 0
  | .consoleResumed .. => 0
  | .frameEarly .. => 0
  | .frameStale .. => 0
  | .sequenceGap .. => 0
  | .unknownAxis a .. => a.toNat
  | .duplicateRecord a .. => a.toNat
  | .strayFeedback a .. => a.val
  | .foreignManageDropped dest .. => dest.toNat
  | .clearanceWarning entry .. => entry.val
  | .protection index .. => index
  | .clampBegin a .. => a.val
  | .axisLocated a .. => a.val

/-- The origin and ack sequence of UNKNOWN_AXIS and DUPLICATE_RECORD. -/
def originBytes : Option Word16 → List Byte
  | none => [0]
  | some ack => 1 :: bytes16 ack

/-- The detail of an event. -/
def Event.detail : Event → List Byte
  | .axisFaulted _ f => f.cause.code :: f.detail
  | .axisStopped _ cause pos => cause.code :: int32 pos
  | .interlockChanged _ level assertion => [levelCode level, assertion.code]
  | .tareDone _ offset => int16 offset
  | .tareBad _ stage count reason => [byteOf stage, byteOf count, reason.code]
  | .consoleLate down con => bytes16 down ++ bytes16 con
  | .consoleResumed late con => nat16 late ++ bytes16 con
  | .frameEarly seq => bytes16 seq
  | .frameStale seq con => bytes16 seq ++ bytes16 con
  | .sequenceGap seq skipped => bytes16 seq ++ bytes16 skipped
  | .unknownAxis _ ack => originBytes ack
  | .duplicateRecord _ ack => originBytes ack
  | .strayFeedback _ ack => bytes16 ack
  | .foreignManageDropped _ reason source seq => [reason.code, source] ++ bytes16 seq
  | .clearanceWarning _ a sep => byteOf a.val :: int32 sep
  | .protection _ table kind => [table.code, kind]
  | .clampBegin _ outcome step => outcome.code :: int16 step
  | .axisLocated _ pos => int32 pos

/-- An event envelope, with its retained count. -/
def QueuedEvent.bytes (q : QueuedEvent) : List Byte :=
  [byteOf q.event.cls.number, q.event.kindCode] ++ nat16 q.event.subject ++
  [byteOf q.count, byteOf q.event.detail.length] ++ q.event.detail

/-! ## The status summary and the frames -/

/-- The settled levels of the lines as one 32-bit field: two bits each, line 0 lowest. -/
def levelsField (levels : List Settled) : Word32 :=
  levels.foldr (fun x w => (w <<< 2) ||| x.code.setWidth 32) 0

/-- The status summary, 21 bytes; flag bits 4 to 7 are 0 (log entry 31). -/
def Summary.bytes (y : Summary) : List Byte :=
  [y.mode.code,
   flagBit 0 y.active.isSome ||| flagBit 1 y.staged.isSome ||| flagBit 2 y.lost ||| flagBit 3 y.dropped] ++
  bytes16 (y.active.getD 0) ++ bytes16 (y.staged.getD 0) ++ y.counts.map byteOf ++
  bytes32 (levelsField y.levels) ++ nat16 y.late ++ nat16 y.waiting

/-- The header of a report frame (R151). -/
def ReportFrame.hdr (f : ReportFrame) : Header := { dest := 0, source := f.source, flags := 0, seq := f.seq }

/-- The body of a report frame: the summary, then answers, then events. -/
def ReportFrame.body (f : ReportFrame) : List Byte :=
  f.summary.bytes ++ f.answers.flatMap Answer.bytes ++ f.events.flatMap QueuedEvent.bytes

/-- A report frame. -/
def ReportFrame.bytes (f : ReportFrame) : List Byte := frameBytes 4 f.hdr (f.answers.length + f.events.length) f.body

/-- A downstream setpoint record, 8 bytes; an absent position is the placeholder 0 (R21). -/
def DownRecord.bytes (r : DownRecord) : List Byte :=
  [byteOf r.axis.val, r.cmd.code] ++ int32 (r.pos.getD 0) ++ int16 r.step

/-- The header of a downstream setpoint frame (R151). -/
def DownFrame.hdr (f : DownFrame) : Header :=
  { dest := 255, source := f.source, flags := flagBit 0 f.synthesised, seq := f.seq }

/-- A downstream setpoint frame. -/
def DownFrame.bytes (f : DownFrame) : List Byte :=
  frameBytes 1 f.hdr f.records.length (f.records.flatMap DownRecord.bytes)

/-- The bytes of a frame on the D-port transmitter. -/
def DownSending.bytes : DownSending → List Byte
  | .setpoint f => f.bytes
  | .manage f => ManageFrame.bytes f

/-- The bytes of a frame on the C-port transmitter: a forwarded frame leaves unchanged (R151). -/
def UpSending.bytes : UpSending → List Byte
  | .forwarded (.feedback f) => FeedbackFrame.bytes f
  | .forwarded (.driveReport f) => DriveReport.bytes f
  | .report f => f.bytes

end Sys2Proof.Machine
end

