-- ==== Sys2Proof/Safety.lean ====
section
/-! DEFINITION. What it means that the part keeps the manual's laws: the invariants of the state, written from the rules and
not from the meanings, and the vocabulary in which the obligations are stated. -/

namespace Sys2Proof.Machine

/-! ## Entries in range (section 1.2, R65, R89, R171) -/

/-- A load section whose fields lie in the ranges of section 1.2. -/
structure LoadSection.InRange (l : LoadSection) : Prop where
  gain : 1 ≤ l.gain ∧ l.gain ≤ 65535
  tareOffset : -32768 ≤ l.tareOffset ∧ l.tareOffset ≤ 32767
  overload : 1 ≤ l.overload ∧ l.overload ≤ 1000000
  slack : 0 ≤ l.slack ∧ l.slack < l.overload
  snagBand : 0 ≤ l.snagBand ∧ l.snagBand ≤ 1000000
  filterLen : l.filterLen = 1 ∨ l.filterLen = 2 ∨ l.filterLen = 4 ∨ l.filterLen = 8

/-- An axis body whose fields lie in the ranges of section 1.2. -/
structure AxisBody.InRange (b : AxisBody) : Prop where
  lower : 0 ≤ b.lower
  limits : b.lower < b.upper
  upper : b.upper ≤ 32000000
  vmax : 1 ≤ b.vmax ∧ b.vmax ≤ 20000
  amax : 1 ≤ b.amax ∧ b.amax ≤ b.vmax
  sdec : b.amax ≤ b.sdec ∧ b.sdec ≤ 20000
  hang : 0 ≤ b.hang ∧ b.hang ≤ 30000000
  crown : 0 ≤ b.crown ∧ b.crown ≤ 5000000
  followTol : 1000 ≤ b.followTol ∧ b.followTol ≤ 500000
  captureWin : 0 ≤ b.captureWin ∧ b.captureWin ≤ 50000
  trackWin : 1000 ≤ b.trackWin ∧ b.trackWin ≤ 2000000
  load : ∀ l, b.load = some l → l.InRange

/-- A pair body whose fields lie in the ranges of R65. -/
structure PairBody.InRange (b : PairBody) : Prop where
  axes : b.upper ≠ b.lower
  gap : 0 ≤ b.gap ∧ b.gap ≤ 10000000
  warn : 0 ≤ b.warn ∧ b.warn ≤ 1000000

/-- An interlock body whose fields lie in the ranges of R89, its list in ascending order without repeats. -/
structure InterlockBody.InRange (b : InterlockBody) : Prop where
  cap : ∀ cap, b.action = .slow cap → 0 ≤ cap ∧ cap ≤ 20000
  axes : ∀ axes, b.axes = .list axes → axes.Pairwise (· < ·)
  settleTime : b.settleTime ≤ 255

/-- A settings record whose fields lie in the ranges of R171. -/
structure Settings.InRange (r : Settings) : Prop where
  node : 1 ≤ r.node.toNat ∧ r.node.toNat ≤ 254
  period : 4 ≤ r.period ∧ r.period ≤ 40
  grace : r.grace ≤ 20 ∧ 2 * r.grace ≤ r.period
  lagDepth : 2 ≤ r.lagDepth ∧ r.lagDepth ≤ 8
  commissionCap : 0 ≤ r.commissionCap ∧ r.commissionCap ≤ 20000
  brakeSettle : 1 ≤ r.brakeSettle ∧ r.brakeSettle ≤ 255

/-- The table store holds what its rules let it hold: every body in range, an absent entry unlocked, and no pair named twice
(R2, R65, R67, R89, R169, R171). -/
structure TablesLawful (s : State) : Prop where
  axisBody : ∀ x b, (tget s.axisTab x).body = some b → b.InRange
  axisLock : ∀ x, (tget s.axisTab x).body = none → (tget s.axisTab x).locked = false
  pairBody : ∀ i b, (tget s.pairTab i).body = some b → b.InRange
  pairLock : ∀ i, (tget s.pairTab i).body = none →
    (tget s.pairTab i).locked = false ∧ (tget s.pairTab i).warning = false
  pairOnce : ∀ i j b c, (tget s.pairTab i).body = some b → (tget s.pairTab j).body = some c →
    b.upper = c.upper → b.lower = c.lower → i = j
  lineBody : ∀ l b, (tget s.lineTab l).body = some b → b.InRange
  lineLock : ∀ l, (tget s.lineTab l).body = none → (tget s.lineTab l).locked = false
  settings : s.settings.InRange

/-! ## Contexts (R19, R22 to R28, R114) -/

/-- The field rules of R19 and R28 for one context, with its axis's record and the lag depth. -/
structure AxisCtx.Lawful (body : Option AxisBody) (lagDepth : Nat) (c : AxisCtx) : Prop where
  configured : c.state = .unconfigured ↔ body = none
  pos : c.state = .parked ∨ c.state = .held ∨ c.state = .tracking ∨ c.state = .stopping → c.pos.isSome
  noPos : c.state = .unconfigured ∨ c.state = .locating → c.pos = none
  step : c.state ≠ .tracking → c.state ≠ .stopping → c.step = 0
  noRequest : c.state = .unconfigured → c.lastReq = none
  cause : c.cause.isSome ↔ c.state = .held ∨ c.state = .stopping
  dest : c.dest.isSome ↔ c.state = .stopping
  captureSet : c.state = .tracking → c.capture = true
  captureClear : c.state = .unconfigured ∨ c.state = .locating ∨ c.state = .parked ∨ c.state = .faulted →
    c.capture = false
  outstanding : c.outstanding.length ≤ lagDepth
  emptyList : c.state = .unconfigured → c.outstanding = []
  acked : c.acked = c.actual.isSome
  status : c.status.isSome = c.actual.isSome
  notAcked : c.state = .unconfigured ∨ c.state = .locating → c.acked = false
  ring : c.ring.length ≤ 8
  filtered : c.filtered.isSome ↔ c.ring ≠ []
  cell : c.ring ≠ [] → ∃ b l, body = some b ∧ b.load = some l
  reference : c.reference.isSome → c.state = .tracking ∧ ∃ b l, body = some b ∧ b.load = some l
  settle : c.settle ≤ 255
  fault : c.fault.isSome ↔ c.state = .faulted
  further : ∀ r, c.fault = some r → r.further ≤ 255
  clampRun : c.clampRun = (c.outcome == .clampAccel || c.outcome == .clampSpeed)

/-- Every context keeps the field rules (R19, R28, R114). -/
def ContextsLawful (s : State) : Prop := ∀ x, (ctxOf s x).Lawful (bodyOf s x) s.settings.lagDepth

/-- The step magnitude is at most vmax, so at most 20,000 (R4, R19), for a moving axis. -/
def StepsBounded (s : State) : Prop := ∀ x b, bodyOf s x = some b → mag (ctxOf s x).step ≤ b.vmax

/-- The law of R55: the screened position of every axis in PARKED, HELD, TRACKING or STOPPING lies within its soft limits, and
for HELD, TRACKING and STOPPING so does its projected stopping position. -/
def WithinLimits (s : State) : Prop :=
  ∀ x b p, bodyOf s x = some b → (ctxOf s x).pos = some p →
    ((ctxOf s x).state = .parked ∨ (ctxOf s x).state.inCue = true → b.lower ≤ p ∧ p ≤ b.upper) ∧
    ((ctxOf s x).state.inCue = true →
      b.lower ≤ projection b.sdec ⟨p, (ctxOf s x).step⟩ ∧ projection b.sdec ⟨p, (ctxOf s x).step⟩ ≤ b.upper)

/-- ANY_FAULT and IN_MOTION follow the states of the axes (R39, R40). -/
def OutputsFollow (s : State) : Prop :=
  (s.anyFault = true ↔ ∃ x, (ctxOf s x).state = .faulted) ∧
  (s.inMotion = true ↔ ∃ x, (ctxOf s x).state = .tracking ∨ (ctxOf s x).state = .stopping)

/-! ## Groups, tare, lines, cadence, queues, emitters -/

/-- A cue slot holds configured axes, each once and in ascending order (R98). -/
def GroupLawful (s : State) (g : Option CueGroup) : Prop :=
  ∀ h, g = some h → h.axes.Pairwise (· < ·) ∧ ∀ x ∈ h.axes, (ctxOf s x).state ≠ .unconfigured

/-- The slots are lawful (R98), and a TRACKING axis is always a member of the active group (R24, R99). -/
def GroupsLawful (s : State) : Prop :=
  GroupLawful s s.active ∧ GroupLawful s s.staged ∧ ∀ x, (ctxOf s x).state = .tracking → inActive s x = true

/-- The axis under tare is PARKED and has a load section, the mode is COMMISSION, and the working values are those of a tare
that is not complete (R132 to R136). -/
def TareLawful (s : State) : Prop :=
  ∀ t, s.tare = some t →
    s.req.mode = .commission ∧ (ctxOf s t.axis).state = .parked ∧
    (∃ b l, bodyOf s t.axis = some b ∧ b.load = some l) ∧ t.count ≤ 15 ∧ (t.stage = if t.count = 0 then 0 else 1) ∧
    -32768 * (t.count : Int) ≤ t.sum ∧ t.sum ≤ 32767 * (t.count : Int)

/-- A line's pending level is its raw level when that differs from its settled level, and absent otherwise (R84, R85). -/
def LineState.Lawful (x : LineState) : Prop := x.pending = if x.settled = .known x.raw then none else some x.raw

/-- Every line is lawful (R84). -/
def LinesLawful (s : State) : Prop := ∀ l, (tget s.lines l).Lawful

/-- The cadence state, the engine, the timer and the mark agree, and in START cadence is STOPPED (R139, R141, R149). -/
structure CadenceLawful (s : State) : Prop where
  engine : s.cyc.cadence = .screening ↔ s.engine.isSome
  timer : s.cyc.timer = true ↔ s.cyc.cadence = .waiting
  marked : s.cyc.cadence = .waiting → s.cyc.mark.isSome
  stopped : s.cyc.cadence = .stopped → s.cyc.mark = none ∧ s.cyc.conSeq = none ∧ s.cyc.late = 0
  start : s.req.mode = .start → s.cyc.cadence = .stopped
  late : s.cyc.late ≤ 65535
  restarted : ∀ e, s.engine = some e → e.restarted = true →
    s.cyc.mark = none ∧ s.cyc.conSeq = none ∧ s.cyc.late = 0

/-- The frame in the engine: at most one record for an axis, placed and fixed records in ascending axis number, and none
placed before the first two phases are over (R43 to R45). -/
structure Screening.Lawful (e : Screening) : Prop where
  ascending : ((e.placed ++ e.fixed).map DownRecord.axis).Pairwise (· < ·)
  phases : e.placed ≠ [] → e.todo = [] ∧ e.nextAxis = 128
  bound : e.nextAxis ≤ 128

/-- The frame in the engine is lawful. -/
def EngineLawful (s : State) : Prop := ∀ e, s.engine = some e → e.Lawful

/-- The event queue holds at most 32 events, ordered by class (R178), with counts from 1 to 255 (R174, R177); a latch holds an
event of its own class. -/
structure EventUnit.Lawful (u : EventUnit) : Prop where
  room : u.queue.length ≤ 32
  ordered : u.queue.Pairwise (fun a b => a.rank ≤ b.rank)
  counts : ∀ q ∈ u.queue, 1 ≤ q.count ∧ q.count ≤ 255
  latches : ∀ k q, tget u.latches k = some q → q.event.cls.latch = some k ∧ 1 ≤ q.count ∧ q.count ≤ 255

/-- The answers in the queue and the unanswered requests of accepted frames never exceed 16 together (R161). -/
def AnswersFit (s : State) : Prop := s.req.answers.length + unanswered s ≤ 16 ∧ ∀ f ∈ s.req.frames, f ≠ []

/-- An emitter whose transmitter is IDLE holds nothing, and its queue holds at most two frames (R156 to R158). -/
structure EmittersLawful (s : State) : Prop where
  downIdle : s.down.tx = none → s.down.slot = none ∧ s.down.queue = []
  downRoom : s.down.queue.length ≤ 2
  upIdle : s.up.tx = none → s.up.slot = none ∧ s.up.queue = []
  upRoom : s.up.queue.length ≤ 2

/-- Everything at once: the state keeps every law above. -/
structure Lawful (s : State) : Prop where
  tables : TablesLawful s
  contexts : ContextsLawful s
  steps : StepsBounded s
  limits : WithinLimits s
  outputs : OutputsFollow s
  groups : GroupsLawful s
  tare : TareLawful s
  lines : LinesLawful s
  cadence : CadenceLawful s
  engine : EngineLawful s
  events : s.ev.Lawful
  answers : AnswersFit s
  emitters : EmittersLawful s

/-! ## Vocabulary of the statements -/

/-- The frames that are left when the front request has been taken from them (R162). -/
def framesLeft (rest : List Envelope) (more : List (List Envelope)) : List (List Envelope) :=
  if rest.isEmpty then more else rest :: more

/-- `e` is the request that the handler carries out next: the first of the first accepted frame, which holds `rest` behind it,
and `more` frames behind that (R162). -/
def FrontRequest (e : Envelope) (rest : List Envelope) (more : List (List Envelope)) (s : State) : Prop :=
  s.req.frames = (e :: rest) :: more

/-- `s` after its front request `e` has been taken and answered: the frames left, one answer queued, nothing else changed
(R162, R163). -/
def answered (e : Envelope) (rest : List Envelope) (more : List (List Envelope)) (result : Result) (body : AnswerBody)
    (s : State) : State :=
  { s with req := { s.req with frames := framesLeft rest more,
                               answers := s.req.answers ++ [⟨e.tag, e.kind, result, body⟩] } }

/-- The receive buffer of a port emptied (R150). -/
def handedOn (port : Port) (s : State) : State :=
  match port with
  | .console => { s with rxC := [] }
  | .drive => { s with rxD := [] }

/-- The upstream emitter after a forwarded frame has been handed to it: on an IDLE transmitter with nothing waiting, else in a
forward queue that has room, else discarded (R158). -/
def joinUpstream (f : Forwarded) (u : UpEmitter) : UpEmitter :=
  if u.tx = none ∧ u.queue = [] ∧ u.slot = none then { u with tx := some (.forwarded f) }
  else if u.queue.length < 2 then { u with queue := u.queue ++ [f] }
  else u

/-- The downstream emitter after a downstream setpoint frame has been handed to it (R156). -/
def joinDownstream (f : DownFrame) (d : DownEmitter) : DownEmitter :=
  if d.tx = none then { d with tx := some (.setpoint f) } else { d with slot := some f }

/-- The part with a console frame accepted (R145): the events, then the cycle monitor in SCREENING and the frame in the
engine, numbered with the downstream sequence. -/
def frameAccepted (f : SetpointFrame) (skipped : Option Word16) (s : State) : State :=
  raiseAll ((if 0 < s.cyc.late then [.consoleResumed s.cyc.late f.hdr.seq] else []) ++
      (match skipped with
       | some n => [.sequenceGap f.hdr.seq n]
       | none => []))
    { s with
      cyc := { s.cyc with cadence := .screening, timer := false, conSeq := some f.hdr.seq, late := 0 }
      engine := some { seq := s.cyc.downSeq, synthesised := false, todo := f.records, nextAxis := 0, fixed := [],
                       placed := [], restarted := false } }

/-- The engine has passed or screened every axis: none that it reaches from here on would be screened (R44). -/
def AllScreened (s : State) (e : Screening) : Prop :=
  ∀ x : Axis, e.nextAxis ≤ x.val → (ctxOf s x).state ≠ .unconfigured → e.hasScreened x = true

/-- The next record of the frame in hand, `r`, names the configured axis `x`, which has not been screened in it: the record is
taken for the axis (R43). -/
structure TakesRecord (s : State) (e : Screening) (r : ConsoleRecord) (rest : List ConsoleRecord) (x : Axis) : Prop where
  engine : s.engine = some e
  todo : e.todo = r :: rest
  axis : r.axis.toNat = x.val
  configured : (ctxOf s x).state ≠ .unconfigured
  fresh : e.hasScreened x = false

/-- The engine reaches the configured axis `x` in the second phase, and it has not been screened in the frame (R44). -/
structure ReachesAxis (s : State) (e : Screening) (x : Axis) : Prop where
  engine : s.engine = some e
  todo : e.todo = []
  reached : e.nextAxis ≤ x.val
  before : ∀ y : Axis, e.nextAxis ≤ y.val → y.val < x.val → (ctxOf s y).state ≠ .unconfigured → e.hasScreened y = true
  configured : (ctxOf s x).state ≠ .unconfigured
  fresh : e.hasScreened x = false

/-- The command `cmd` screens the configured axis `x`, with the request `req` when a record has been taken for the axis and
without one in the second phase; `e` is the frame in the engine as the screening leaves it, but for the record that the
screening fixes (R43, R44). -/
inductive Screens (s : State) (x : Axis) : Instr → Option Int → Screening → Prop
  | record (e : Screening) (r : ConsoleRecord) (rest : List ConsoleRecord) (h : TakesRecord s e r rest x) :
      Screens s x .screenConsoleRecord (some r.position.toInt) { e with todo := rest }
  | unnamed (e : Screening) (h : ReachesAxis s e x) :
      Screens s x (.screenUnnamedAxis x) none { e with nextAxis := x.val + 1 }

/-- `t` with the downstream record `q` fixed, in ascending axis number among the records fixed in the frame (R45). -/
def fixRecord (q : DownRecord) (e : Screening) (t : State) : State :=
  { t with engine := some { e with fixed := insertRecord q e.fixed } }

/-- The context with the last request of its screening: that of the record, or as it was (R33, R43). -/
def requested (req : Option Int) (c : AxisCtx) : AxisCtx := { c with lastReq := if req.isSome then req else c.lastReq }

/-- An interlock entry with the action `act` bears on the axis `x`: its line is UNSETTLED or settled at its active level, and
its axis set covers the axis (R87, R90). -/
def Bears (s : State) (x : Axis) (act : Action) : Prop :=
  ∃ l b, (tget s.lineTab l).body = some b ∧ b.action = act ∧
    ((tget s.lines l).settled = .unsettled ∨ (tget s.lines l).settled = .known b.activeLevel) ∧
    (b.axes = .all ∨ ∃ axes, b.axes = .list axes ∧ x ∈ axes)

/-- The capture conditions for a HELD axis at `p` with a request (R61). -/
structure MayCapture (s : State) (x : Axis) (b : AxisBody) (p req : Int) : Prop where
  member : ∃ g, s.active = some g ∧ x ∈ g.axes
  capture : (ctxOf s x).capture = true
  halt : ¬ Bears s x .halt
  window : mag (req - p) ≤ b.captureWin

/-- The axis `x`, at `p`, computes a candidate for the request `req`: it is TRACKING, or it is HELD and may capture (R47). -/
def ComputesCandidate (s : State) (x : Axis) (b : AxisBody) (p req : Int) : Prop :=
  (ctxOf s x).state = .tracking ∨ (ctxOf s x).state = .held ∧ MayCapture s x b p req

/-- The position and step that a candidate of `x` starts from: a capture starts from step 0 (R62). -/
def startOf (s : State) (x : Axis) (p : Int) : Motion :=
  { pos := p, step := if (ctxOf s x).state = .tracking then (ctxOf s x).step else 0 }

/-- The candidate of `x` at `p` for the request `req` (R48 to R50, R62). -/
def candidateOf (s : State) (x : Axis) (b : AxisBody) (p req : Int) : Motion :=
  candidate b (effectiveCap s x b) (startOf s x p) req

/-- The check that refuses the candidate of `x` at `p` for the request `req`, by its cause, or none (R52). -/
def verdictOf (s : State) (x : Axis) (b : AxisBody) (p req : Int) : Option StopCause :=
  checkCandidate s x b (startOf s x p) (candidateOf s x b p req) req

/-- The pair rule of the entry `i` refuses a candidate of `x`: it is active, and the separation that the candidate gives is
below the gap and below the old one (R76). -/
def RefusedByRule (s : State) (x : Axis) (b : AxisBody) (prev cand : Motion) (i : PairIndex) : Prop :=
  ∃ r q, (tget s.pairTab i).body = some r ∧ ruleSep s x b prev cand (tget s.pairTab i) = some q ∧
    q.new < r.gap ∧ q.new < q.old

/-- The context of an axis whose stop is taken in its screening, at the position `p` with the step `v` before it and the ramp
step `r`: STOPPING, or HELD at once when the ramp step is 0 (R25, R58, R63, R64). -/
def stoppedInScreening (cause : StopCause) (capture : Bool) (p r : Int) (c : AxisCtx) : AxisCtx :=
  { c with state := if r = 0 then .held else .stopping
           pos := some (p + r)
           step := r
           cause := some cause
           dest := if r = 0 then none else some .held
           capture := capture
           reference := none
           outcome := .ramp
           clampRun := false }

/-- The separation of a pair rule as the axes stand; none when the rule is inactive (R72, R74). -/
def ruleSeparation (s : State) (r : PairBody) : Option Int :=
  match bodyOf s r.upper, (ctxOf s r.upper).presence, bodyOf s r.lower, (ctxOf s r.lower).presence with
  | some bu, some mu, some bl, some ml => some (separation bu mu bl ml)
  | _, _, _, _ => none

/-- Apart from the context of `x`, the outputs, the in-warning flags, the event unit and the engine, `t` is `s`: what the
screening of `x` may change (R46, R47, R80). -/
def ScreensOnly (x : Axis) (s t : State) : Prop :=
  t = { s with ctx := t.ctx, anyFault := t.anyFault, inMotion := t.inMotion, pairTab := t.pairTab, ev := t.ev,
               engine := t.engine } ∧
  (∀ y, y ≠ x → ctxOf t y = ctxOf s y) ∧
  ∀ i, (tget t.pairTab i).body = (tget s.pairTab i).body ∧ (tget t.pairTab i).locked = (tget s.pairTab i).locked

/-- The next feedback record, `r`, names the configured axis `x`, no record of which has been taken in the frame (R113), and it
matches the entry `m` of the axis's outstanding list: `older` stand before it and `newer` behind it (R117). -/
structure MatchesEntry (s : State) (r : FeedbackRecord) (rest : List FeedbackRecord) (more : List (List FeedbackRecord))
    (x : Axis) (older : List OutEntry) (m : OutEntry) (newer : List OutEntry) : Prop where
  frames : s.fb.frames = (r :: rest) :: more
  axis : r.axis.toNat = x.val
  configured : (ctxOf s x).state ≠ .unconfigured
  fresh : x ∉ s.fb.taken
  list : (ctxOf s x).outstanding = older ++ m :: newer
  ack : m.seq = r.ack
  first : ∀ o ∈ older, o.seq ≠ r.ack

/-- The feedback monitor after a record: the frame in hand ends with its last record, and the set of axes taken with it
(R112). -/
def monitorAfter (taken : List Axis) (rest : List FeedbackRecord) (more : List (List FeedbackRecord)) : FeedbackMonitor :=
  if rest = [] then { frames := more, taken := [] } else { frames := rest :: more, taken := taken }

/-- The drive status that a feedback record reports: bit 0 ready, bit 1 brake_released, bit 2 power_ok, and the drive fault
code (section 10.7). -/
def reported (r : FeedbackRecord) : DriveStatus :=
  { ready := r.status.getLsbD 0, brakeReleased := r.status.getLsbD 1, powerOk := r.status.getLsbD 2, code := r.code }

/-- The context of a matched record's axis before the checks: the matched and older entries gone, the last actual position and
drive status set, acked-once set (R34, R117). -/
def heard (r : FeedbackRecord) (newer : List OutEntry) (c : AxisCtx) : AxisCtx :=
  { c with outstanding := newer, actual := some r.actual.toInt, status := some (reported r), acked := true }

/-- The fault causes that steps 1 to 4 of the checks find in a matched record, in the order of the steps (R119 to R123). -/
def findings (r : FeedbackRecord) (m : OutEntry) (b : AxisBody) (c : AxisCtx) : List AxisFault :=
  (if r.code ≠ 0 then [.driveFault r.code] else []) ++
  (if (reported r).powerOk = true then [] else [.drivePower]) ++
  (if m.cmd = .holdBrake ∧ (reported r).brakeReleased = true ∧ c.settle = 0 then [.brake] else []) ++
  (if c.state = .locating then
    if b.lower ≤ r.actual.toInt ∧ r.actual.toInt ≤ b.upper then [] else [.outOfLimits r.actual.toInt]
   else
    match m.pos with
    | none => []
    | some p => if b.followTol < mag (r.actual.toInt - p) then [.followingError m.seq p r.actual.toInt] else [])

/-- The screening engine places the record of `x` next: every record and axis of its frame is screened, and that record is the
first of those not yet placed (R43 to R45). -/
def PlacesNext (s : State) (x : Axis) : Prop :=
  ∃ e q rest, s.engine = some e ∧ e.todo = [] ∧ AllScreened s e ∧ e.fixed = q :: rest ∧ q.axis = x

/-- The feedback monitor takes a record for `x` next, the first of the frame in hand that names it (R112, R113). -/
def ChecksNext (s : State) (x : Axis) : Prop :=
  ∃ r rest more, s.fb.frames = (r :: rest) :: more ∧ r.axis.toNat = x.val ∧ x ∉ s.fb.taken

/-- The feedback monitor with a record of `x` in hand, its context as matching leaves it, before the checks (R112, R117). That
the context found may be noted is the model's own record (log entry 29). -/
def recordMatched (x : Axis) (r : FeedbackRecord) (rest : List FeedbackRecord) (more : List (List FeedbackRecord))
    (newer : List OutEntry) (s : State) : State :=
  setCtx x (heard r newer (ctxOf s x)) (noteJudged .monitor x { s with fb := { frames := rest :: more, taken := x :: s.fb.taken } })

/-- Steps 1 to 4 of the checks taken on `t` for a record judged against the context `c`: the fault causes that they find, one
after another (R119 to R123). -/
def stepsTaken (x : Axis) (r : FeedbackRecord) (m : OutEntry) (b : AxisBody) (c : AxisCtx) (t : State) : State :=
  (findings r m b c).foldl (fun u f => takeFault x f u) t

/-- The position learned by an axis that is still LOCATING in step 4: PARKED at its actual position, with AXIS_LOCATED (R20, R22,
R122). -/
def positionLearned (x : Axis) (r : FeedbackRecord) (t : State) : State :=
  if (ctxOf t x).state = .locating then
    raise (.axisLocated x r.actual.toInt) (setCtx x
      { ctxOf t x with state := .parked, pos := some r.actual.toInt, step := 0, cause := none, dest := none,
                       capture := false, reference := none } t)
  else t

/-- The record done: the brake settle remaining decreased by one when it is above 0, and the monitor ready for its next record
(R112, R119, R121). -/
def recordDone (x : Axis) (taken : List Axis) (rest : List FeedbackRecord) (more : List (List FeedbackRecord)) (t : State) :
    State :=
  { setCtx x { ctxOf t x with settle := (ctxOf t x).settle - 1 } t with fb := monitorAfter taken rest more }

/-- The load that a raw count stands for: (raw - tare_offset) * gain / 256, truncated toward zero, then saturated (R127). -/
def rawToLoad (l : LoadSection) (raw : Int) : Int :=
  max (-1000000) (min 1000000 (((raw - l.tareOffset) * l.gain).tdiv 256))

/-- The filtered load of a ring: the floor of the average of the newest filter_len loads, or of all when there are fewer
(R128). -/
def average (l : LoadSection) (ring : List Int) : Int :=
  (ring.take l.filterLen).sum / ((min l.filterLen ring.length : Nat) : Int)

/-- A load formed from a raw count and entered in the ring of `x`, the filtered load formed, and the overload check made (R127
to R129). -/
def loadTaken (x : Axis) (l : LoadSection) (raw : Int) (t : State) : State :=
  let ring := (rawToLoad l raw :: (ctxOf t x).ring).take 8
  let u := setCtx x { ctxOf t x with ring := ring, filtered := some (average l ring) } t
  if l.overload < rawToLoad l raw then takeFault x (.overload (rawToLoad l raw)) u else u

/-- A load taken by a record that found `x` LOCATING: an overload leaves the axis without the screened position that step 4 has
learned (R129, log entry 28). -/
def loadTakenLocating (x : Axis) (l : LoadSection) (raw : Int) (t : State) : State :=
  if (ctxOf t x).state = .parked ∧ l.overload < rawToLoad l raw then
    setCtx x { ctxOf (loadTaken x l raw t) x with pos := none } (loadTaken x l raw t)
  else loadTaken x l raw t

/-- A stop taken between screenings for the TRACKING axis `x` with a cause that is not recapturable and the destination HELD
(R25, R26). -/
def stoppedForGood (x : Axis) (cause : StopCause) (t : State) : State :=
  raise (.axisStopped x (.stop cause) ((ctxOf t x).pos.getD 0)) (setCtx x
    { ctxOf t x with state := .stopping, cause := some cause, dest := some .held, reference := none, capture := false } t)

/-- At this moment a change of the block `judge` has faulted the axis `x`, which the change found in the context `found`: the
other block may have judged the axis in that context too, before the fault reached the store (R31, log entry 29). -/
def FaultedNow (s : State) (judge : Judge) (x : Axis) (found : AxisCtx) : Prop :=
  s.judged = some { judge := judge, axis := x, moment := s.now, found := found } ∧
  (ctxOf s x).state = .faulted ∧ found.state ≠ .faulted

/-- A record of the FAULTED axis `x` judged as its list stands: matched, which for a FAULTED axis is all, or stray (R117, R125).
-/
def judgedAsStanding (x : Axis) (r : FeedbackRecord) (rest : List FeedbackRecord) (more : List (List FeedbackRecord))
    (s : State) : State :=
  match (ctxOf s x).outstanding.dropWhile (fun o => o.seq ≠ r.ack) with
  | [] => raise (.strayFeedback x r.ack) { s with fb := monitorAfter (x :: s.fb.taken) rest more }
  | _ :: newer => { recordMatched x r rest more newer s with fb := monitorAfter (x :: s.fb.taken) rest more }

/-- An axis is TRACKING or STOPPING: the AXIS_MOVING condition of MODE and RESTART (R165, R173). -/
def Moving (s : State) : Prop := ∃ x, (ctxOf s x).state = .tracking ∨ (ctxOf s x).state = .stopping

/-- An axis is HELD, TRACKING or STOPPING: the AXIS_MOVING condition of PUT_SETTINGS (R172). -/
def SomeInCue (s : State) : Prop := ∃ x, (ctxOf s x).state.inCue = true

/-- An axis list that fills the bytes: a count byte and that many numbers, or the count 255 alone (section 10.8). -/
def listFits : List Byte → Bool
  | [] => false
  | c :: ns => if c = 255 then ns.isEmpty else ns.length == c.toNat

/-- The body of a request of a known kind has the form of its layout (R160, section 10.9): its length, and the length that its
axis list or its load-section flag gives. -/
def bodyFits (kind : Nat) (body : List Byte) : Bool :=
  match kind with
  | 2 | 12 | 14 | 15 => body.length == 3
  | 4 | 8 | 19 | 20 => body.isEmpty
  | 6 => listFits body
  | 9 => body.length == 12
  | 10 => listFits (body.drop 6)
  | 11 => body.length == if (body.getD 1 0).getLsbD 0 then 59 else 42
  | 13 => body.length == 7
  | 18 => listFits (body.drop 2)
  | _ => body.length == 1

/-- Field `f` of an axis record lies outside its range: a range stated in terms of an earlier field fails at the later one, and
fields 11 to 16 are tested when the load section is present (section 1.2, R11). -/
def AxisBody.Fails (b : AxisBody) (f : Nat) : Prop :=
  f = 1 ∧ ¬ (0 ≤ b.lower ∧ b.lower ≤ 31999999) ∨
  f = 2 ∧ ¬ (b.lower < b.upper ∧ b.upper ≤ 32000000) ∨
  f = 3 ∧ ¬ (1 ≤ b.vmax ∧ b.vmax ≤ 20000) ∨
  f = 4 ∧ ¬ (1 ≤ b.amax ∧ b.amax ≤ b.vmax) ∨
  f = 5 ∧ ¬ (b.amax ≤ b.sdec ∧ b.sdec ≤ 20000) ∨
  f = 6 ∧ ¬ (0 ≤ b.hang ∧ b.hang ≤ 30000000) ∨
  f = 7 ∧ ¬ (0 ≤ b.crown ∧ b.crown ≤ 5000000) ∨
  f = 8 ∧ ¬ (1000 ≤ b.followTol ∧ b.followTol ≤ 500000) ∨
  f = 9 ∧ ¬ (0 ≤ b.captureWin ∧ b.captureWin ≤ 50000) ∨
  f = 10 ∧ ¬ (1000 ≤ b.trackWin ∧ b.trackWin ≤ 2000000) ∨
  ∃ l, b.load = some l ∧
    (f = 11 ∧ ¬ (1 ≤ l.gain ∧ l.gain ≤ 65535) ∨
     f = 12 ∧ ¬ (-32768 ≤ l.tareOffset ∧ l.tareOffset ≤ 32767) ∨
     f = 13 ∧ ¬ (1 ≤ l.overload ∧ l.overload ≤ 1000000) ∨
     f = 14 ∧ ¬ (0 ≤ l.slack ∧ l.slack < l.overload) ∨
     f = 15 ∧ ¬ (0 ≤ l.snagBand ∧ l.snagBand ≤ 1000000) ∨
     f = 16 ∧ l.filterLen ≠ 1 ∧ l.filterLen ≠ 2 ∧ l.filterLen ≠ 4 ∧ l.filterLen ≠ 8)

/-- Field `f` of a carried pair body fails its test (R68). -/
def PairFields.Fails (b : PairFields) (f : Nat) : Prop :=
  f = 1 ∧ 127 < b.upper ∨
  f = 2 ∧ (127 < b.lower ∨ b.lower = b.upper) ∨
  f = 3 ∧ ¬ (0 ≤ b.gap ∧ b.gap ≤ 10000000) ∨
  f = 4 ∧ ¬ (0 ≤ b.warn ∧ b.warn ≤ 1000000)

/-- Field `f` of a carried interlock body fails its test: a speed_cap is tested for SLOW only (R91). -/
def InterlockFields.Fails (b : InterlockFields) (f : Nat) : Prop :=
  f = 1 ∧ b.level ≠ 0 ∧ b.level ≠ 1 ∨
  f = 2 ∧ ¬ (1 ≤ b.action ∧ b.action ≤ 4) ∨
  f = 3 ∧ b.action = 2 ∧ ¬ (0 ≤ b.cap ∧ b.cap ≤ 20000) ∨
  f = 4 ∧ (∃ ns, b.axes = .numbers ns ∧ ∃ n ∈ ns, 127 < n) ∨
  f = 5 ∧ 255 < b.settleTime

/-- Field `f` of a settings body lies outside its range; a grace above half the period fails field 3 (R171, R172). -/
def Settings.Fails (r : Settings) (f : Nat) : Prop :=
  f = 1 ∧ ¬ (1 ≤ r.node.toNat ∧ r.node.toNat ≤ 254) ∨
  f = 2 ∧ ¬ (4 ≤ r.period ∧ r.period ≤ 40) ∨
  f = 3 ∧ (20 < r.grace ∨ r.period < 2 * r.grace) ∨
  f = 4 ∧ ¬ (2 ≤ r.lagDepth ∧ r.lagDepth ≤ 8) ∨
  f = 5 ∧ ¬ (0 ≤ r.commissionCap ∧ r.commissionCap ≤ 20000) ∨
  f = 6 ∧ ¬ (1 ≤ r.brakeSettle ∧ r.brakeSettle ≤ 255)

/-- `f` is the first of the fields for which `fails` holds (R11). -/
def FirstFailing (fails : Nat → Prop) (f : Nat) : Prop := fails f ∧ ∀ g, g < f → ¬ fails g

/-! ## Bytes on the link (chapter 10) -/

/-- The value of an unsigned field, most significant byte first (section 10.6). -/
def valueOf (bs : List Byte) : Nat := bs.foldl (fun n b => 256 * n + b.toNat) 0

/-- The bytes are exactly the fields, one after another: each of its width in bytes, most significant byte first, a signed value
in two's complement (section 10.6). -/
def Spells : List Byte → List (Nat × Int) → Prop
  | bs, [] => bs = []
  | bs, (width, v) :: more =>
    width ≤ bs.length ∧ (valueOf (bs.take width) : Int) = v % 256 ^ width ∧ Spells (bs.drop width) more

/-- A truth value as the bit `n` of a flag byte. -/
def bitAt (n : Nat) (b : Bool) : Int := if b then 2 ^ n else 0

/-- The bytes are a frame of these header fields and this body: the header, the body, and the check value over both
(section 10.6). -/
def IsFrame (bs : List Byte) (kind dest source flags seq count : Int) (body : List Byte) : Prop :=
  ∃ head check, bs = head ++ body ++ check ∧
    Spells head [(1, kind), (1, dest), (1, source), (1, flags), (2, seq), (2, count), (2, body.length)] ∧
    Spells check [(4, (crc32 (head ++ body)).toNat)]

/-- The bytes are an envelope of a fixed part that ends in a length field of `width` bytes, and as many bytes as that field says
(section 10.8). -/
def IsEnvelope (fixed width : Nat) (bs : List Byte) : Prop :=
  fixed + width ≤ bs.length ∧ bs.length = fixed + width + valueOf ((bs.drop fixed).take width)

/-- The body of a frame is made of its records or envelopes, as many as the record count says and the limit of the kind allows:
6 bytes for a console setpoint record, 12 for a feedback record; a request has 3 bytes before its 2 length bytes; in a REPORT
frame 21 bytes stand before answers, which have 4 bytes before their 2 length bytes, and events, which have 5 before their 1
(R150, R151, section 10.8; answers before events, log entry 14). -/
def BodyFits (kind count : Nat) (body : List Byte) : Prop :=
  kind = 1 ∧ count ≤ 128 ∧ body.length = 6 * count ∨
  kind = 2 ∧ count ≤ 128 ∧ body.length = 12 * count ∨
  kind = 3 ∧ count ≤ 8 ∧ (∃ es : List (List Byte), es.length = count ∧ body = es.flatten ∧ ∀ e ∈ es, IsEnvelope 3 2 e) ∨
  kind = 4 ∧ count ≤ 12 ∧ ∃ (summary : List Byte) (answers events : List (List Byte)), summary.length = 21 ∧
    answers.length + events.length = count ∧ body = summary ++ answers.flatten ++ events.flatten ∧
    (∀ a ∈ answers, IsEnvelope 4 2 a) ∧ ∀ v ∈ events, IsEnvelope 5 1 v

/-- The bytes pass the link check and the form check (R150). -/
def PassesChecks (bs : List Byte) : Prop :=
  ∃ (kind dest source flags seq count : Nat) (body : List Byte), IsFrame bs kind dest source flags seq count body ∧
    kind < 256 ∧ count < 65536 ∧ body.length < 65536 ∧ BodyFits kind count body

/-- The number that a code byte spells. -/
def codeNumber (b : Byte) : Int := b.toNat

/-- The fields of a downstream setpoint record (section 10.7). -/
def recordFields (q : DownRecord) : List (Nat × Int) :=
  [(1, q.axis.val), (1, codeNumber q.cmd.code), (4, q.pos.getD 0), (2, q.step)]

/-- The fields of the status summary (section 10.10): the settled levels two bits each, line 0 lowest. -/
def summaryFields (y : Summary) : List (Nat × Int) :=
  [(1, codeNumber y.mode.code), (1, bitAt 0 y.active.isSome + bitAt 1 y.staged.isSome + bitAt 2 y.lost + bitAt 3 y.dropped),
   (2, (y.active.getD 0).toNat), (2, (y.staged.getD 0).toNat)] ++
  y.counts.map (fun n : Nat => (1, (n : Int))) ++
  [(4, y.levels.foldr (fun v n => 4 * n + codeNumber v.code) 0), (2, (y.late : Int)), (2, y.waiting)]

/-- The fields of a load section (section 10.9). -/
def loadFields (l : LoadSection) : List (Nat × Int) :=
  [(2, l.gain), (2, l.tareOffset), (4, l.overload), (4, l.slack), (4, l.snagBand), (1, l.filterLen)]

/-- The fields of an axis body: the load section is present or not (section 10.9). -/
def axisFields (b : AxisBody) : List (Nat × Int) :=
  [(1, bitAt 0 b.load.isSome), (4, b.lower), (4, b.upper), (4, b.vmax), (4, b.amax), (4, b.sdec), (4, b.hang), (4, b.crown),
   (4, b.followTol), (4, b.captureWin), (4, b.trackWin)] ++ (b.load.map loadFields).getD []

/-- The fields of a pair body (section 10.9). -/
def pairFields (b : PairBody) : List (Nat × Int) := [(1, b.upper.val), (1, b.lower.val), (4, b.gap), (4, b.warn)]

/-- The fields of an axis list: the count 255 for ALL, else the count and the numbers (section 10.8). -/
def listFields : AxisSet → List (Nat × Int)
  | .all => [(1, 255)]
  | .list axes => (1, axes.length) :: axes.map (fun x => (1, (x.val : Int)))

/-- The fields of an interlock body: the action's code and its speed_cap, 0 when the action is not SLOW (section 10.9). -/
def interlockFields (b : InterlockBody) : List (Nat × Int) :=
  [(1, codeNumber (levelCode b.activeLevel))] ++
  (match b.action with
   | .halt => [(1, 1), (2, 0)]
   | .slow cap => [(1, 2), (2, cap)]
   | .noDown => [(1, 3), (2, 0)]
   | .noUp => [(1, 4), (2, 0)]) ++
  [(1, (b.settleTime : Int))] ++ listFields b.axes

/-- The fields of a settings body (section 10.9). -/
def settingsFields (r : Settings) : List (Nat × Int) :=
  [(1, r.node.toNat), (1, r.period), (1, r.grace), (1, r.lagDepth), (2, r.commissionCap), (1, r.brakeSettle)]

/-- The fields that AXIS_FAULTED carries behind the cause (section 10.10). -/
def faultFields : AxisFault → List (Nat × Int)
  | .outOfLimits actual => [(4, actual)]
  | .followingError seq screened actual => [(2, seq.toNat), (4, screened), (4, actual)]
  | .driveFault code => [(1, code.toNat)]
  | .overload load => [(4, load)]
  | _ => []

/-- The bytes that fields take. -/
def widthOf (fields : List (Nat × Int)) : Nat := (fields.map Prod.fst).sum

/-- The fields of a fault record: the cause, the further faults, and the detail padded to 10 bytes (section 10.10). -/
def recordedFields (r : FaultRecord) : List (Nat × Int) :=
  [(1, codeNumber r.what.cause.code), (1, r.further)] ++ faultFields r.what ++ [(10 - widthOf (faultFields r.what), 0)]

/-- The status byte of a last drive status (section 10.7). -/
def statusNumber (d : DriveStatus) : Int := bitAt 0 d.ready + bitAt 1 d.brakeReleased + bitAt 2 d.powerOk

/-- The fixed part of an axis context, 43 bytes (section 10.10). An absent field is sent as 0. -/
def contextFixedFields (c : AxisCtx) : List (Nat × Int) :=
  [(1, codeNumber c.state.code),
   (1, bitAt 0 c.pos.isSome + bitAt 1 c.lastReq.isSome + bitAt 2 c.cause.isSome + bitAt 3 c.dest.isSome +
       bitAt 4 c.actual.isSome + bitAt 5 c.filtered.isSome + bitAt 6 c.reference.isSome + bitAt 7 c.fault.isSome),
   (1, bitAt 0 c.capture + bitAt 1 c.acked + bitAt 2 c.clampRun),
   (4, c.pos.getD 0), (2, c.step), (4, c.lastReq.getD 0),
   (1, codeNumber ((c.cause.map StopCause.code).getD 0)), (1, codeNumber ((c.dest.map StopDest.code).getD 0)),
   (4, c.actual.getD 0),
   (1, (c.status.map statusNumber).getD 0), (1, codeNumber ((c.status.map DriveStatus.code).getD 0)),
   (4, c.filtered.getD 0), (4, c.reference.getD 0), (1, c.settle), (1, codeNumber c.outcome.code)] ++
  (c.fault.map recordedFields).getD [(12, 0)]

/-- An axis context: the fixed part, the outstanding list, oldest first, and the load ring, newest first (section 10.10). -/
def contextFields (c : AxisCtx) : List (Nat × Int) :=
  contextFixedFields c ++ [(1, (c.outstanding.length : Int))] ++
  c.outstanding.flatMap (fun m =>
    [(2, m.seq.toNat), (1, codeNumber m.cmd.code), (1, bitAt 0 m.pos.isSome), (4, m.pos.getD 0)]) ++
  [(1, (c.ring.length : Int))] ++ c.ring.map (fun load => (4, load))

/-- The table code, the index and the flags that open the answer of GET_ENTRY (section 10.10). -/
def entryFields (table index : Nat) (present locked warning : Bool) : List (Nat × Int) :=
  [(1, table), (2, index), (1, bitAt 0 present + bitAt 1 locked + bitAt 2 warning)]

/-- The fields of an answer's body (section 10.10). The tare offset of a context has none (log entry 27). -/
def answerFields : AnswerBody → List (Nat × Int)
  | .empty => []
  | .badField field => [(1, field)]
  | .outOfLimits pos => [(4, pos)]
  | .duplicatePair index => [(2, index.val)]
  | .axis x => [(1, x.val)]
  | .axisEntry x v => entryFields 1 x.val v.body.isSome v.locked false ++ (v.body.map axisFields).getD []
  | .pairEntry i v => entryFields 2 i.val v.body.isSome v.locked v.warning ++ (v.body.map pairFields).getD []
  | .lineEntry l v settled =>
    entryFields 3 l.val v.body.isSome v.locked false ++ (v.body.map interlockFields).getD [] ++ [(1, codeNumber settled.code)]
  | .context c _ => contextFields c
  | .settings r => settingsFields r
  | .staged axes => [(1, axes)]
  | .taken cue counted others => [(2, cue.toNat), (1, counted), (1, others)]
  | .dropped cue => [(1, bitAt 0 cue.isSome), (2, (cue.getD 0).toNat)]
  | .halted stopped disarmed => [(1, stopped), (1, disarmed)]
  | .tareStage stage => [(1, stage)]

/-- The origin of UNKNOWN_AXIS and DUPLICATE_RECORD, with the ack sequence of feedback (section 10.10). -/
def originFields : Option Word16 → List (Nat × Int)
  | none => [(1, 0)]
  | some ack => [(1, 1), (2, ack.toNat)]

/-- The class, the kind code and the subject of an event, and the fields of its detail (section 10.10). -/
def eventLayout : Event → (Int × Int × Int) × List (Nat × Int)
  | .axisFaulted x f => ((1, 1, x.val), (1, codeNumber f.cause.code) :: faultFields f)
  | .axisStopped x cause pos => ((2, 2, x.val), [(1, codeNumber cause.code), (4, pos)])
  | .interlockChanged l level assertion =>
    ((3, 3, l.val), [(1, codeNumber (levelCode level)), (1, codeNumber assertion.code)])
  | .tareDone x offset => ((4, 4, x.val), [(2, offset)])
  | .tareBad x stage count reason => ((4, 5, x.val), [(1, stage), (1, count), (1, codeNumber reason.code)])
  | .consoleLate down con => ((5, 6, 0), [(2, down.toNat), (2, con.toNat)])
  | .consoleResumed late con => ((5, 7, 0), [(2, late), (2, con.toNat)])
  | .frameEarly seq => ((5, 8, 0), [(2, seq.toNat)])
  | .frameStale seq con => ((5, 9, 0), [(2, seq.toNat), (2, con.toNat)])
  | .sequenceGap seq skipped => ((5, 10, 0), [(2, seq.toNat), (2, skipped.toNat)])
  | .unknownAxis n ack => ((6, 11, n.toNat), originFields ack)
  | .duplicateRecord n ack => ((6, 12, n.toNat), originFields ack)
  | .strayFeedback x ack => ((6, 13, x.val), [(2, ack.toNat)])
  | .foreignManageDropped dest reason source seq =>
    ((6, 14, dest.toNat), [(1, codeNumber reason.code), (1, source.toNat), (2, seq.toNat)])
  | .clearanceWarning entry x sep => ((6, 15, entry.val), [(1, x.val), (4, sep)])
  | .protection index table kind => ((6, 16, index), [(1, codeNumber table.code), (1, kind.toNat)])
  | .clampBegin x outcome step => ((7, 17, x.val), [(1, codeNumber outcome.code), (2, step)])
  | .axisLocated x pos => ((7, 18, x.val), [(4, pos)])

/-- Protection: the mode is SHOW and the named entry's locked flag is set (R168). -/
def Protected (s : State) (locked : Bool) : Prop := s.req.mode = .inShow ∧ locked = true

/-- A refusal PROTECTED, with its event (R168). -/
def protectedAnswer (e : Envelope) (rest : List Envelope) (more : List (List Envelope)) (table : TableCode) (index : Nat)
    (s : State) : State :=
  answered e rest more .isProtected .empty (raise (.protection index table e.kind) s)

/-- A line once its settle time is known to have run out: settled at its pending level, with INTERLOCK_CHANGED; a line without a
pending level, or whose pending level has not held for the settle time, as it is (R85, R86). -/
def settledNow (l : Line) (s : State) : State :=
  match (tget s.lines l).pending with
  | none => s
  | some level =>
    if (tget s.lines l).since + settleTicks s l ≤ s.now then
      raise (.interlockChanged l level (assertionOf (tget s.lineTab l) level))
        { s with lines := tset s.lines l { tget s.lines l with settled := .known level, pending := none } }
    else s

end Sys2Proof.Machine
end

