-- ==== Sys2Proof/WellFormed.lean ====
section
/-! DEFINITION. Which commands are well formed: the frames that they carry fit their layouts and limits (R150, R151) and their
row of the table is the one that the router gives them (R153, R154). The node address is state, so whether a manage frame is
the part's or foreign is not judged here beyond destination 0. -/

namespace Sys2Proof

/-- A setpoint frame within its record limit. -/
def SetpointFrame.wf (f : SetpointFrame) : Bool := decide (f.records.length ≤ 128)

/-- A feedback frame within its record limit. -/
def FeedbackFrame.wf (f : FeedbackFrame) : Bool := decide (f.records.length ≤ 128)

/-- A manage frame within its limit, whose body length fits its 16-bit field. -/
def ManageFrame.wf (f : ManageFrame) : Bool :=
  decide (f.requests.length ≤ 8) && decide ((f.requests.flatMap Machine.Envelope.bytes).length < 65536)

/-- A drive report of the form that R150 checks. -/
def DriveReport.wf (f : DriveReport) : Bool :=
  decide (f.count.toNat ≤ 12) && decide (21 ≤ f.body.length) && decide (f.body.length < 65536) &&
    Machine.reportFits true f.count.toNat (f.body.drop 21)

/-- A frame within its layout. -/
def Frame.wf : Frame → Bool
  | .setpoint f => f.wf
  | .feedback f => f.wf
  | .manage f => f.wf
  | .report f => f.wf

/-- Whether the router discards a frame that a port hands it, whatever the state (R153, R154). -/
def Frame.discardedAt : Port → Frame → Bool
  | .console, .feedback _ => true
  | .console, .report _ => true
  | .console, .manage f => f.hdr.dest == 0
  | .console, .setpoint _ => false
  | .drive, .setpoint _ => true
  | .drive, .manage _ => true
  | .drive, .feedback _ => false
  | .drive, .report _ => false

/-- A well-formed command. A command without frame operands always is. -/
def Instr.wf : Instr → Bool
  | .corruptFrame port bytes => (Machine.readFrame port bytes).isNone
  | .routerDiscard port f => f.wf && f.discardedAt port
  | .consoleSetpointFrame _ f => f.wf
  | .feedbackFrame f => f.wf
  | .driveReportFrame f => f.wf
  | .manageFrame _ f => f.wf && f.hdr.dest != 0
  | .foreignManageFrame f => f.wf && f.hdr.dest != 0
  | .powerOnReset => true
  | .deadlineExpiry => true
  | .screenConsoleRecord => true
  | .screenUnnamedAxis _ => true
  | .outstandingAppend => true
  | .emission _ => true
  | .feedbackRecord => true
  | .interlockRawChange _ _ _ => true
  | .interlockSettle _ => true
  | .reportTimerExpiry => true
  | .dPortSendDone => true
  | .cPortSendDone => true
  | .mode => true
  | .getEntry => true
  | .getAxis => true
  | .getSettings => true
  | .setMask => true
  | .haltAxes => true
  | .clearFault => true
  | .restart => true
  | .putPair => true
  | .putInterlock => true
  | .putAxis => true
  | .eraseEntry => true
  | .putSettings => true
  | .lockEntry => true
  | .unlockEntry => true
  | .tare => true
  | .untare => true
  | .stageCue => true
  | .takeCue => true
  | .dropCue => true
  | .unknownRequest => true

end Sys2Proof
end

