-- ==== Sys2Proof/Certificates/Slice0/Obligations.lean ====
section
/-! DEFINITION. The statements about the part, written from the numbered rules of spec/, for the provers. -/

open Sys2Proof Sys2Proof.Machine

/-! ## Steps and the queue -/

/-- A step takes the command at the front of the queue (the block's form of a step; derived). -/
def Obligations.StepRunsFrontCommand : Prop :=
  ∀ (c : Instr) (rest : List Instr) (s : State), s.pending = c :: rest → step s = exec c { s with pending := rest }

/-- No step stops the part, and a command leaves the steps that wait behind it waiting. On an empty queue the part queues the
steps that its own agents would take now, and when there are none one clock tick passes. This is the model's choice: the clock
and the empty queue (log entries 1 and 2), a command that the block is in no position to take, which changes nothing (log entry
5), and the steps that a power-on reset keeps waiting (log entry 7). -/
def Obligations.StepsAlwaysAnswerNext : Prop :=
  (∀ (c : Instr) (s : State), ∃ t, exec c s = .next t ∧ t.pending = s.pending) ∧
  (∀ s : State, s.pending = [] →
     (ownWork s = [] → step s = .next { s with now := s.now + 1 }) ∧
     (ownWork s ≠ [] → step s = .next { s with pending := ownWork s }))

/-! ## The link (chapter 10) -/

/-- What a port receives passes the link check and the form check just when it is a header, the body that the header describes
and the check value over both, of a kind from 1 to 4 with no more records than its limit (R150, R151; answers before events in a
report, log entry 14; a setpoint frame at the D-port is read no further, for R154 discards it). A frame that fails is discarded
as not received: only the receive buffer changes (R150). FEEDBACK, REPORT and a manage frame for node 0 at the C-port, and
SETPOINT and MANAGE at the D-port, are discarded without an event (R153, R154). -/
def Obligations.DiscardedFramesChangeNothing : Prop :=
  (∀ bytes : List Byte, (readFrame .console bytes ≠ none ↔ PassesChecks bytes) ∧
    (readFrame .drive bytes ≠ none ↔ PassesChecks bytes ∧ bytes.head? ≠ some 1)) ∧
  (∀ (port : Port) (bytes : List Byte) (s : State),
     let received := (match port with
       | .console => s.rxC
       | .drive => s.rxD) ++ bytes
     readFrame port received = none ∨ ¬ PassesChecks received →
     exec (.corruptFrame port bytes) s = .next (handedOn port s)) ∧
  (∀ (port : Port) (f : Frame) (s : State), f.discardedAt port = true →
     exec (.routerDiscard port f) s = .next (handedOn port s))

/-- A feedback frame goes to the feedback monitor and a copy to the upstream emitter, a drive report to the upstream emitter
alone, in every mode (R154, R158). That any number of frames waits behind the one in hand is the model's choice (log entry 22),
and that a frame without records leaves nothing waiting its reading (log entry 23). -/
def Obligations.DriveFramesForwarded : Prop :=
  (∀ (f : FeedbackFrame) (s : State), exec (.feedbackFrame f) s = .next { handedOn .drive s with
      fb := { s.fb with frames := s.fb.frames ++ (if f.records = [] then [] else [f.records]) }
      up := joinUpstream (.feedback f) s.up }) ∧
  (∀ (f : DriveReport) (s : State), exec (.driveReportFrame f) s = .next { handedOn .drive s with
      up := joinUpstream (.driveReport f) s.up })

/-- A manage frame for the part is accepted whole when the answers in the queue, the unanswered requests and its own do not
exceed 16; otherwise it is dropped whole and the manage-dropped flag is set; a frame without requests does nothing (R161). A
manage frame for another node is dropped with FOREIGN_MANAGE_DROPPED in SHOW; otherwise it goes on an IDLE D-port with nothing
waiting, joins a manage queue that has room, or is dropped with reason EMITTER_FULL (R153, R155, R157). -/
def Obligations.ManageFramesAcceptedPassedOrDropped : Prop :=
  (∀ (moment : Nat) (f : ManageFrame) (s : State), f.hdr.dest = s.settings.node → f.hdr.dest ≠ 0 →
     (s.req.answers.length + (s.req.frames.map List.length).sum + f.requests.length ≤ 16 →
       exec (.manageFrame moment f) s = .next { handedOn .console s with
         now := max s.now moment
         req := { s.req with frames := s.req.frames ++ (if f.requests = [] then [] else [f.requests]) } }) ∧
     (16 < s.req.answers.length + (s.req.frames.map List.length).sum + f.requests.length →
       exec (.manageFrame moment f) s = .next { handedOn .console s with
         now := max s.now moment
         req := { s.req with dropped := true, droppedSets := s.req.droppedSets + 1 } })) ∧
  (∀ (f : ManageFrame) (s : State), f.hdr.dest ≠ 0 → f.hdr.dest ≠ s.settings.node →
     exec (.foreignManageFrame f) s = .next (
       if s.req.mode = .inShow then
         raise (.foreignManageDropped f.hdr.dest .showMode f.hdr.source f.hdr.seq) (handedOn .console s)
       else if s.down.tx = none ∧ s.down.slot = none ∧ s.down.queue = [] then
         { handedOn .console s with down := { s.down with tx := some (.manage f) } }
       else if s.down.queue.length < 2 then
         { handedOn .console s with down := { s.down with queue := s.down.queue ++ [f] } }
       else raise (.foreignManageDropped f.hdr.dest .emitterFull f.hdr.source f.hdr.seq) (handedOn .console s)))

/-- When the D-port transmitter returns to IDLE, the frame in the setpoint slot goes first, else the oldest foreign manage
frame, else the transmitter stays IDLE (R157). When the C-port transmitter does, the oldest forwarded frame goes first, else the
report frame, else it stays IDLE (R158); when a report frame has left, each flag that it carried set is cleared, provided it has
not been set since the frame was built (R159; "set since" is the model's comparison of stamps, log entry 13). -/
def Obligations.TransmittersChooseNextFrame : Prop :=
  (∀ (x : DownSending) (s : State), s.down.tx = some x →
     (∀ f, s.down.slot = some f →
       exec .dPortSendDone s = .next { s with down := { s.down with tx := some (.setpoint f), slot := none } }) ∧
     (∀ f rest, s.down.slot = none → s.down.queue = f :: rest →
       exec .dPortSendDone s = .next { s with down := { s.down with tx := some (.manage f), queue := rest } }) ∧
     (s.down.slot = none → s.down.queue = [] →
       exec .dPortSendDone s = .next { s with down := { s.down with tx := none } })) ∧
  (∀ (x : UpSending) (s : State), s.up.tx = some x →
     ∃ t, exec .cPortSendDone s = .next t ∧
       t = { s with up := t.up, ev := { s.ev with lost := t.ev.lost }, req := { s.req with dropped := t.req.dropped } } ∧
       (∀ f rest, s.up.queue = f :: rest → t.up = { s.up with tx := some (.forwarded f), queue := rest }) ∧
       (∀ r, s.up.queue = [] → s.up.slot = some r → t.up = { s.up with tx := some (.report r), slot := none }) ∧
       (s.up.queue = [] → s.up.slot = none → t.up = { s.up with tx := none }) ∧
       (∀ f, x = .forwarded f → t.ev.lost = s.ev.lost ∧ t.req.dropped = s.req.dropped) ∧
       (∀ r, x = .report r →
         (t.ev.lost = true ↔ s.ev.lost = true ∧ ¬ (r.summary.lost = true ∧ r.lostStamp = s.ev.lostSets)) ∧
         (t.req.dropped = true ↔
           s.req.dropped = true ∧ ¬ (r.summary.dropped = true ∧ r.droppedStamp = s.req.droppedSets))))

/-- Every well-formed frame is read back from its bytes as it was: no field, record or envelope is lost on the link (R151,
sections 10.2 and 10.6 to 10.8). A setpoint frame is read at the C-port, the other kinds at either port. That nothing in an
envelope of a report frame says whether it is an answer or an event is log entry 14. -/
def Obligations.FramesReadBackAsWritten : Prop :=
  (∀ f : SetpointFrame, f.wf = true → readFrame .console (SetpointFrame.bytes f) = some (.setpoint f)) ∧
  (∀ (port : Port) (f : FeedbackFrame), f.wf = true → readFrame port (FeedbackFrame.bytes f) = some (.feedback f)) ∧
  (∀ (port : Port) (f : ManageFrame), f.wf = true → readFrame port (ManageFrame.bytes f) = some (.manage f)) ∧
  (∀ (port : Port) (f : DriveReport), f.wf = true → readFrame port (DriveReport.bytes f) = some (.report f))

/-- Table and settings bodies are read back as they were written: no bit of a body is dropped (section 10.9). -/
def Obligations.BodiesReadBackAsWritten : Prop :=
  (∀ (x : Axis) (b : AxisBody), b.InRange → decodePutAxis (byteOf x.val :: b.bytes) = .ok (x.val, b)) ∧
  (∀ (i : PairIndex) (b : PairBody), b.InRange → decodePutPair (nat16 i.val ++ b.bytes) =
    .ok (i.val, { upper := b.upper.val, lower := b.lower.val, gap := b.gap, warn := b.warn })) ∧
  (∀ (l : Line) (b : InterlockBody), b.InRange →
    ∃ f, decodePutInterlock (byteOf l.val :: b.bytes) = .ok (l.val, f) ∧ f.body = some b) ∧
  (∀ r : Settings, r.InRange → decodeSettings r.bytes = .ok r)

/-- A request whose body is out of form is answered BAD_FIELD with field number 0, and a table code outside 1 to 3 with field
number 1, whatever the mode (R160, R163); an axis list names each number once, in ascending order, ALL names every axis, and a
list with a number above 127 names none (R101, R108). -/
def Obligations.BodiesOutOfFormAreBadField : Prop :=
  (∀ (e : Envelope) (rest : List Envelope) (more : List (List Envelope)) (s : State), FrontRequest e rest more s →
    1 ≤ e.kind.toNat → e.kind.toNat ≤ 20 →
    (bodyFits e.kind.toNat e.body = false →
      exec (requestStep e.kind) s = .next (answered e rest more .badField (.badField 0) s)) ∧
    (∀ t b1 b0, e.kind = 2 ∨ e.kind = 12 ∨ e.kind = 14 ∨ e.kind = 15 → e.body = [t, b1, b0] → t ≠ 1 → t ≠ 2 → t ≠ 3 →
      exec (requestStep e.kind) s = .next (answered e rest more .badField (.badField 1) s))) ∧
  (∀ ns : List Nat, (∃ n ∈ ns, 127 < n) → (AxisList.numbers ns).toSet = none) ∧
  (∀ ns : List Nat, (∀ n ∈ ns, n ≤ 127) → ∃ axes, (AxisList.numbers ns).toSet = some (.list axes) ∧
    axes.Pairwise (· < ·) ∧ ∀ x : Axis, x ∈ axes ↔ x.val ∈ ns) ∧
  AxisList.all.toSet = some .all ∧ (∀ x : Axis, x ∈ AxisSet.members .all ∧ AxisSet.covers x .all = true)

/-! ## Cycle supervision (chapter 9) -/

/-- A console setpoint frame is accepted in STOPPED whatever its sequence number and time, and in WAITING inside the window with
the next number, or with a later one and SEQUENCE_GAP. It is discarded in START without an event, while a frame is screened or
before the window opens with FRAME_EARLY, and with an old sequence number with FRAME_STALE (R142 to R145; the clock of the
window is log entry 1). -/
def Obligations.ConsoleFrameIsJudged : Prop :=
  (∀ (moment : Nat) (f : SetpointFrame) (s : State), s.req.mode ≠ .start →
     let base := { handedOn .console s with now := max s.now moment }
     (s.cyc.cadence = .stopped →
       exec (.consoleSetpointFrame moment f) s = .next (frameAccepted f none base)) ∧
     (∀ (m : EmissionMark) (c : Word16), s.cyc.cadence = .waiting → s.cyc.mark = some m → s.cyc.conSeq = some c →
       m.moment + m.window ≤ max s.now moment →
       (f.hdr.seq = c + 1 → exec (.consoleSetpointFrame moment f) s = .next (frameAccepted f none base)) ∧
       (2 ≤ (f.hdr.seq - c).toNat ∧ (f.hdr.seq - c).toNat ≤ 32768 →
         exec (.consoleSetpointFrame moment f) s = .next (frameAccepted f (some (f.hdr.seq - c - 1)) base)))) ∧
  (∀ (moment : Nat) (f : SetpointFrame) (s : State),
     let base := { handedOn .console s with now := max s.now moment }
     (s.req.mode = .start → exec (.consoleSetpointFrame moment f) s = .next base) ∧
     (s.req.mode ≠ .start → s.cyc.cadence = .screening →
       exec (.consoleSetpointFrame moment f) s = .next (raise (.frameEarly f.hdr.seq) base)) ∧
     (∀ (m : EmissionMark), s.req.mode ≠ .start → s.cyc.cadence = .waiting → s.cyc.mark = some m →
       max s.now moment < m.moment + m.window →
       exec (.consoleSetpointFrame moment f) s = .next (raise (.frameEarly f.hdr.seq) base)) ∧
     (∀ (m : EmissionMark) (c : Word16), s.req.mode ≠ .start → s.cyc.cadence = .waiting → s.cyc.mark = some m →
       s.cyc.conSeq = some c → m.moment + m.window ≤ max s.now moment →
       f.hdr.seq = c ∨ 32769 ≤ (f.hdr.seq - c).toNat →
       exec (.consoleSetpointFrame moment f) s = .next (raise (.frameStale f.hdr.seq c) base)))

/-- The expiry of the deadline in WAITING: the late count rises, the first of a run raises CONSOLE_LATE, and a synthesised frame
without records is handed to the engine with the next downstream number (R147). At an emission the built frame goes to the
downstream emitter and the downstream sequence advances. While cadence runs, the mark is set, the window bound T - g and the
deadline (T + g, or T for a synthesised frame) are fixed, and the monitor waits; after a RESTART in the screening, cadence stops
(R146, R149, R151, R156; a half millisecond is 12,500 ticks, log entry 1; the node address is read at the emission, log entry
30). -/
def Obligations.DeadlinesAndEmissionsPaceTheCycle : Prop :=
  (∀ (m : EmissionMark) (c : Word16) (s : State), s.cyc.cadence = .waiting → s.cyc.timer = true → s.cyc.mark = some m →
    s.cyc.conSeq = some c →
    exec .deadlineExpiry s = .next (raiseAll (if s.cyc.late = 0 then [.consoleLate s.cyc.downSeq c] else [])
      { s with
        now := max s.now (m.moment + m.deadline)
        cyc := { s.cyc with cadence := .screening, timer := false, late := min (s.cyc.late + 1) 65535 }
        engine := some { seq := s.cyc.downSeq, synthesised := true, todo := [], nextAxis := 0, fixed := [], placed := [],
                         restarted := false } })) ∧
  (∀ (moment : Nat) (e : Screening) (s : State), s.engine = some e → e.todo = [] → e.fixed = [] → AllScreened s e →
    exec (.emission moment) s = .next { s with
      now := max s.now moment
      engine := none
      down := joinDownstream { source := s.settings.node, synthesised := e.synthesised, seq := e.seq, records := e.placed }
        s.down
      cyc :=
        if e.restarted then { s.cyc with downSeq := s.cyc.downSeq + 1, cadence := .stopped, timer := false, mark := none }
        else { s.cyc with downSeq := s.cyc.downSeq + 1, cadence := .waiting, timer := true, mark := some {
          moment := max s.now moment
          window := (s.settings.period - s.settings.grace) * 12500
          deadline := (if e.synthesised then s.settings.period else s.settings.period + s.settings.grace) * 12500 } } })

/-- A downstream setpoint frame and a report frame that the part builds have their header, their body and the check value; a
downstream record has its 8 bytes and the status summary its 21, field by field; and a frame that the part forwards leaves as it
arrived (R151, sections 10.2, 10.6, 10.7 and 10.10; flag bits without a meaning are 0, log entry 31). The check value of the
nine bytes 31 to 39 is CBF43926. -/
def Obligations.BuiltFramesFollowLayout : Prop :=
  (∀ f : DownFrame, IsFrame f.bytes 1 255 f.source.toNat (bitAt 0 f.synthesised) f.seq.toNat f.records.length
    (f.records.flatMap DownRecord.bytes)) ∧
  (∀ q : DownRecord, Spells q.bytes (recordFields q)) ∧
  (∀ f : ReportFrame, IsFrame f.bytes 4 0 f.source.toNat 0 f.seq.toNat (f.answers.length + f.events.length)
    (f.summary.bytes ++ f.answers.flatMap Answer.bytes ++ f.events.flatMap QueuedEvent.bytes)) ∧
  (∀ y : Summary, Spells y.bytes (summaryFields y) ∧ (y.counts.length = 7 → y.bytes.length = 21)) ∧
  (∀ bytes : List Byte,
    (∀ f, readFrame .console bytes = some (.manage f) → (DownSending.manage f).bytes = bytes) ∧
    (∀ f, readFrame .drive bytes = some (.feedback f) → (UpSending.forwarded (.feedback f)).bytes = bytes) ∧
    (∀ f, readFrame .drive bytes = some (.report f) → (UpSending.forwarded (.driveReport f)).bytes = bytes)) ∧
  (∀ f : DownFrame, (DownSending.setpoint f).bytes = f.bytes) ∧ (∀ f : ReportFrame, (UpSending.report f).bytes = f.bytes) ∧
  [Command.holdBrake, .follow, .quickstop].map Command.code = [1, 2, 3] ∧
  [Mode.start, .commission, .inShow].map Mode.code = [0, 1, 2] ∧
  [Settled.known .low, .known .high, .unsettled].map Settled.code = [0, 1, 2] ∧
  crc32 [0x31, 0x32, 0x33, 0x34, 0x35, 0x36, 0x37, 0x38, 0x39] = 0xCBF43926#32

/-- An answer and an event have their envelope and behind it their body or detail, field by field: the entries, the settings and
the axis context with its fixed part of 43 bytes and its two lists; and every code is that of its list (R151, sections 10.8 to
10.10; flag bits without a meaning are 0, log entry 31; the tare offset of a GET_AXIS answer has no bytes, log entry 27). -/
def Obligations.AnswersAndEventsFollowLayout : Prop :=
  (∀ a : Answer, Spells a.bytes ([(2, (a.tag.toNat : Int)), (1, a.kind.toNat), (1, codeNumber a.result.code),
    (2, widthOf (answerFields a.body))] ++ answerFields a.body)) ∧
  (∀ q : QueuedEvent, Spells q.bytes ([(1, (eventLayout q.event).1.1), (1, (eventLayout q.event).1.2.1),
    (2, (eventLayout q.event).1.2.2), (1, (q.count : Int)), (1, widthOf (eventLayout q.event).2)] ++ (eventLayout q.event).2)) ∧
  (∀ c : AxisCtx, widthOf (contextFixedFields c) = 43) ∧
  [Result.accepted, .wrongMode, .isProtected, .badField, .badIndex, .duplicatePair, .axisMoving, .outOfLimits, .notPositioned,
    .notConfigured, .axisFaulted, .notFaulted, .notParked, .pendingFull, .nothingPending, .busy, .noLoadCell,
    .unknownRequest].map Result.code = [0, 1, 2, 3, 4, 5, 6, 7, 8, 9, 10, 11, 12, 13, 14, 15, 16, 17] ∧
  [AxisState.unconfigured, .locating, .parked, .held, .tracking, .stopping, .faulted].map AxisState.code =
    [0, 1, 2, 3, 4, 5, 6] ∧
  [StopDest.parked, .held].map StopDest.code = [2, 3] ∧
  [StopCause.pair, .limit, .interlock, .diverged, .missingRecord, .consoleLate, .stopRequest, .snag, .slack, .released,
    .taken].map (fun c => (LeaveCause.stop c).code) = [1, 2, 3, 4, 5, 6, 7, 8, 9, 10, 11] ∧
  [FaultCause.outOfLimits, .noDrive, .feedbackLost, .followingError, .driveFault, .drivePower, .brake, .overload].map
    (fun c => (LeaveCause.fault c).code) = [16, 17, 18, 19, 20, 21, 22, 23] ∧
  (∀ c, (LeaveCause.stop c).code = c.code) ∧ (∀ c, (LeaveCause.fault c).code = c.code) ∧
  [ScreenOutcome.none, .pass, .clampAccel, .clampSpeed, .ramp, .refused, .idle].map ScreenOutcome.code =
    [0, 1, 2, 3, 4, 5, 6] ∧
  [Level.low, .high].map levelCode = [0, 1] ∧
  [Assertion.deasserted, .asserted, .noEntry].map Assertion.code = [0, 1, 2] ∧
  [TareAbort.leftParked, .mode].map TareAbort.code = [1, 2] ∧
  [DropReason.showMode, .emitterFull].map DropReason.code = [1, 2] ∧
  [TableCode.axisTable, .pairTable, .lineTable].map TableCode.code = [1, 2, 3]

/-! ## Screening (chapters 3 to 5) -/

/-- A console record that names an axis above 127 or an UNCONFIGURED axis is dropped with UNKNOWN_AXIS, and a second record for
an axis already screened in the frame with DUPLICATE_RECORD: nothing else changes (R43). In the second phase an axis that is
UNCONFIGURED or already screened is passed: only the engine moves on (R44). -/
def Obligations.RecordsDroppedAndAxesPassed : Prop :=
  (∀ (e : Screening) (r : ConsoleRecord) (rest : List ConsoleRecord) (s : State), s.engine = some e → e.todo = r :: rest →
    (128 ≤ r.axis.toNat ∨ (∃ x : Axis, r.axis.toNat = x.val ∧ (ctxOf s x).state = .unconfigured) →
      exec .screenConsoleRecord s =
        .next (raise (.unknownAxis r.axis none) { s with engine := some { e with todo := rest } })) ∧
    (∀ x : Axis, r.axis.toNat = x.val → (ctxOf s x).state ≠ .unconfigured → e.hasScreened x = true →
      exec .screenConsoleRecord s =
        .next (raise (.duplicateRecord r.axis none) { s with engine := some { e with todo := rest } }))) ∧
  (∀ (e : Screening) (x : Axis) (s : State), s.engine = some e → e.todo = [] → e.nextAxis ≤ x.val →
    (∀ y : Axis, e.nextAxis ≤ y.val → y.val < x.val → (ctxOf s y).state ≠ .unconfigured → e.hasScreened y = true) →
    ((ctxOf s x).state = .unconfigured ∨ e.hasScreened x = true) →
    exec (.screenUnnamedAxis x) s = .next { s with engine := some { e with nextAxis := x.val + 1 } })

/-- Each screening of an axis fixes one downstream record that carries the command, position and step of the axis's state after
it, and changes no other axis: beside the engine it changes only the in-warning flags, the status outputs and the event unit
(R21, R43 to R46, R80). -/
def Obligations.ScreeningTouchesOneAxis : Prop :=
  ∀ (s : State) (x : Axis) (cmd : Instr) (req : Option Int) (e : Screening), Screens s x cmd req e →
    ∃ t q, exec cmd s = .next t ∧ ScreensOnly x s t ∧ t.engine = (fixRecord q e t).engine ∧
      (ctxOf t x).lastReq = (requested req (ctxOf s x)).lastReq ∧
      q.axis = x ∧
      ((ctxOf t x).state = .locating → q.cmd = .holdBrake ∧ q.pos = none ∧ q.step = 0) ∧
      ((ctxOf t x).state = .parked → q.cmd = .holdBrake ∧ q.pos = (ctxOf t x).pos ∧ q.step = 0) ∧
      ((ctxOf t x).state = .held → q.cmd = .follow ∧ q.pos = (ctxOf t x).pos ∧ q.step = 0) ∧
      ((ctxOf t x).state = .tracking ∨ (ctxOf t x).state = .stopping →
        q.cmd = .follow ∧ q.pos = (ctxOf t x).pos ∧ q.step = (ctxOf t x).step) ∧
      ((ctxOf t x).state = .faulted → q.cmd = .quickstop ∧ q.pos = (ctxOf t x).pos ∧ q.step = 0)

/-- The screening of a LOCATING, PARKED or FAULTED axis, and of a HELD axis that has no request or does not meet the capture
conditions, changes nothing of its context but the last request and the outcome IDLE, and fixes the record of its state (R21,
R33, R47, R61, R63, R64). -/
def Obligations.IdleScreeningChangesOutcomeOnly : Prop :=
  ∀ (s : State) (x : Axis) (cmd : Instr) (req : Option Int) (e : Screening), Screens s x cmd req e →
    (ctxOf s x).state = .locating ∨ (ctxOf s x).state = .parked ∨ (ctxOf s x).state = .faulted ∨
      ((ctxOf s x).state = .held ∧
        ∀ b p r, bodyOf s x = some b → (ctxOf s x).pos = some p → req = some r → ¬ MayCapture s x b p r) →
    exec cmd s = .next (fixRecord
      { axis := x
        cmd := match (ctxOf s x).state with
          | .held => .follow
          | .faulted => .quickstop
          | _ => .holdBrake
        pos := if (ctxOf s x).state = .locating then none else (ctxOf s x).pos
        step := 0 } e
      (setCtx x { requested req (ctxOf s x) with outcome := .idle, clampRun := false } s))

/-- A candidate that passes every check is taken: the axis is TRACKING at the candidate's position and step, without a stop
cause; a capture sets the reference load from the filtered load of an axis with a load section; the in-warning flag of each
active rule that names the axis follows Sep_new against G + W, with CLEARANCE_WARNING, of the entry index, the axis and Sep_new,
when it goes from clear to set, in ascending entry index; CLAMP_BEGIN is raised when a clamp run begins; and the record carries
FOLLOW at the candidate (R24, R33, R51, R57, R62, R80, R81). -/
def Obligations.PassedCandidateIsTaken : Prop :=
  ∀ (s : State) (x : Axis) (cmd : Instr) (req : Int) (e : Screening) (b : AxisBody) (p : Int),
    Screens s x cmd (some req) e → bodyOf s x = some b → (ctxOf s x).pos = some p → ComputesCandidate s x b p req →
    verdictOf s x b p req = none →
    ∃ t, exec cmd s = .next t ∧ ScreensOnly x s t ∧
      ctxOf t x = { ctxOf s x with
        state := .tracking
        pos := some (candidateOf s x b p req).pos
        step := (candidateOf s x b p req).step
        lastReq := some req
        cause := none
        reference := if (ctxOf s x).state = .tracking then (ctxOf s x).reference
          else if b.load = none then none else (ctxOf s x).filtered
        outcome := candidateOutcome b (startOf s x p) (candidateOf s x b p req) req
        clampRun := candidateOutcome b (startOf s x p) (candidateOf s x b p req) req = .clampAccel ∨
          candidateOutcome b (startOf s x p) (candidateOf s x b p req) req = .clampSpeed } ∧
      (∀ i, (tget t.pairTab i).warning =
        match (tget s.pairTab i).body, ruleSep s x b (startOf s x p) (candidateOf s x b p req) (tget s.pairTab i) with
        | some r, some q => decide (q.new < r.gap + r.warn)
        | _, _ => (tget s.pairTab i).warning) ∧
      t.ev = (raiseAll
        ((List.finRange 512).filterMap (fun i =>
          match (tget s.pairTab i).body,
              ruleSep s x b (startOf s x p) (candidateOf s x b p req) (tget s.pairTab i) with
          | some r, some q =>
            if q.new < r.gap + r.warn ∧ (tget s.pairTab i).warning = false then some (.clearanceWarning i x q.new) else none
          | _, _ => none) ++
          (if (ctxOf t x).clampRun = true ∧ (ctxOf s x).clampRun = false then
            [.clampBegin x (ctxOf t x).outcome (ctxOf t x).step] else [])) s).ev ∧
      t.engine = (fixRecord
        { axis := x, cmd := .follow, pos := some (candidateOf s x b p req).pos, step := (candidateOf s x b p req).step } e t).engine

/-- A candidate that a check refuses is discarded. A TRACKING axis is stopped with the check's cause, with AXIS_STOPPED at the
position before the screening, and takes the ramp step in the same screening; a HELD axis stays HELD at its position, takes the
cause, keeps its capture permission, has outcome REFUSED, and raises nothing (R23, R25, R51, R58, R62). -/
def Obligations.RefusedCandidateIsDiscarded : Prop :=
  ∀ (s : State) (x : Axis) (cmd : Instr) (req : Int) (e : Screening) (b : AxisBody) (p : Int) (cause : StopCause),
    Screens s x cmd (some req) e → bodyOf s x = some b → (ctxOf s x).pos = some p →
    verdictOf s x b p req = some cause →
    ((ctxOf s x).state = .tracking →
      exec cmd s = .next (fixRecord
        { axis := x, cmd := .follow, pos := some (p + rampStep b.sdec (ctxOf s x).step)
          step := rampStep b.sdec (ctxOf s x).step } e
        (raise (.axisStopped x (.stop cause) p) (setCtx x
          (stoppedInScreening cause (ctxOf s x).capture p (rampStep b.sdec (ctxOf s x).step)
            (requested (some req) (ctxOf s x))) s)))) ∧
    ((ctxOf s x).state = .held → MayCapture s x b p req →
      exec cmd s = .next (fixRecord { axis := x, cmd := .follow, pos := some p, step := 0 } e
        (setCtx x { requested (some req) (ctxOf s x) with cause := some cause, outcome := .refused, clampRun := false } s)))

/-- A TRACKING axis screened without a record is stopped: with MISSING_RECORD on a console frame, capture permitted kept, and
with CONSOLE_LATE on a synthesised frame, capture permitted cleared; it takes the ramp step in the same screening, with
AXIS_STOPPED at the position before it (R25, R63, R64). A STOPPING axis takes its ramp step at each screening, with a record or
without one, and on a ramp step of 0 goes to its stop destination: HELD with its cause and capture permission kept, or PARKED
with the brake settle set from the settings and the cause, the capture permission and the reference load gone (R22, R23, R27,
R47, R60). -/
def Obligations.StoppedAxesTakeRampSteps : Prop :=
  (∀ (s : State) (x : Axis) (e : Screening) (b : AxisBody) (p : Int),
     ReachesAxis s e x → bodyOf s x = some b → (ctxOf s x).pos = some p → (ctxOf s x).state = .tracking →
     ∀ cause : StopCause, cause = (if e.synthesised = true then .consoleLate else .missingRecord) →
       exec (.screenUnnamedAxis x) s = .next (fixRecord
         { axis := x, cmd := .follow, pos := some (p + rampStep b.sdec (ctxOf s x).step)
           step := rampStep b.sdec (ctxOf s x).step } { e with nextAxis := x.val + 1 }
         (raise (.axisStopped x (.stop cause) p) (setCtx x
           (stoppedInScreening cause ((ctxOf s x).capture && !e.synthesised) p (rampStep b.sdec (ctxOf s x).step)
             (ctxOf s x)) s)))) ∧
  (∀ (s : State) (x : Axis) (cmd : Instr) (req : Option Int) (e : Screening) (b : AxisBody) (p : Int) (dest : StopDest),
     Screens s x cmd req e → bodyOf s x = some b → (ctxOf s x).pos = some p → (ctxOf s x).state = .stopping →
     (ctxOf s x).dest = some dest →
     (rampStep b.sdec (ctxOf s x).step ≠ 0 →
       exec cmd s = .next (fixRecord
         { axis := x, cmd := .follow, pos := some (p + rampStep b.sdec (ctxOf s x).step)
           step := rampStep b.sdec (ctxOf s x).step } e
         (setCtx x { requested req (ctxOf s x) with
           pos := some (p + rampStep b.sdec (ctxOf s x).step), step := rampStep b.sdec (ctxOf s x).step
           outcome := .ramp, clampRun := false } s))) ∧
     (rampStep b.sdec (ctxOf s x).step = 0 → dest = .held →
       exec cmd s = .next (fixRecord { axis := x, cmd := .follow, pos := some p, step := 0 } e
         (setCtx x { requested req (ctxOf s x) with
           state := .held, step := 0, dest := none, outcome := .ramp, clampRun := false } s))) ∧
     (rampStep b.sdec (ctxOf s x).step = 0 → dest = .parked →
       exec cmd s = .next (fixRecord { axis := x, cmd := .holdBrake, pos := some p, step := 0 } e
         (setCtx x { requested req (ctxOf s x) with
           state := .parked, step := 0, cause := none, dest := none, capture := false, reference := none
           settle := s.settings.brakeSettle, outcome := .ramp, clampRun := false } s))))

/-- The acceleration clamp, the speed cap and the candidate position (R48, R50), and the outcome that names the clamp (R51). -/
def Obligations.CandidateFollowsClamps : Prop :=
  (∀ (b : AxisBody) (cap : Int) (prev : Motion) (req : Int), b.InRange → 0 ≤ cap →
     let dReq := req - prev.pos
     let dA := accelClamp b.amax prev.step dReq
     let cand := candidate b cap prev req
     (prev.step - b.amax ≤ dReq ∧ dReq ≤ prev.step + b.amax → dA = dReq) ∧
     (dReq < prev.step - b.amax → dA = prev.step - b.amax) ∧
     (prev.step + b.amax < dReq → dA = prev.step + b.amax) ∧
     cand.pos = prev.pos + cand.step ∧
     (mag dA ≤ cap → cand.step = dA) ∧
     (cap < mag dA → sgn dA = sgn prev.step → cap < mag prev.step →
       cand.step = sgn dA * max cap (mag prev.step - b.sdec)) ∧
     (cap < mag dA → ¬ (sgn dA = sgn prev.step ∧ cap < mag prev.step) → cand.step = sgn dA * cap) ∧
     mag cand.step ≤ mag dA ∧
     (mag cand.step ≤ cap ∨ mag cand.step = mag prev.step - b.sdec) ∧
     (cap = 0 → prev.step = 0 → cand.step = 0)) ∧
  (∀ (b : AxisBody) (prev cand : Motion) (req : Int),
     let dReq := req - prev.pos
     (cand.step = dReq → candidateOutcome b prev cand req = .pass) ∧
     (cand.step ≠ dReq → accelClamp b.amax prev.step dReq ≠ dReq → candidateOutcome b prev cand req = .clampAccel) ∧
     (cand.step ≠ dReq → accelClamp b.amax prev.step dReq = dReq → candidateOutcome b prev cand req = .clampSpeed))

/-- The effective cap is the least of vmax, the speed caps of the SLOW entries that bear on the axis, and the commission cap in
COMMISSION, and in SHOW for an axis whose entry is unlocked (R49). -/
def Obligations.EffectiveCapIsLeastTerm : Prop :=
  ∀ (s : State) (x : Axis) (b : AxisBody),
    IsLeast { v : Int | v = b.vmax ∨ Bears s x (.slow v) ∨
      (v = s.settings.commissionCap ∧
        (s.req.mode = .commission ∨ s.req.mode = .inShow ∧ (tget s.axisTab x).locked = false)) }
      (effectiveCap s x b)

/-- The checks of a candidate, in their order: a HALT line, divergence, the direction lines, the limit projection, the pair
rules; the first that fails gives the cause (R52 to R56, R75, R76, R94, R96). -/
def Obligations.CandidateChecksInOrder : Prop :=
  ∀ (s : State) (x : Axis) (b : AxisBody) (prev cand : Motion) (req : Int),
    let refused := checkCandidate s x b prev cand req
    let diverged := b.trackWin < mag (req - cand.pos)
    let directed := (cand.step < 0 ∧ Bears s x .noDown) ∨ (0 < cand.step ∧ Bears s x .noUp)
    let outside := projection b.sdec cand < b.lower ∨ b.upper < projection b.sdec cand
    (Bears s x .halt → refused = some .interlock) ∧
    (¬ Bears s x .halt → diverged → refused = some .diverged) ∧
    (¬ Bears s x .halt → ¬ diverged → directed → refused = some .interlock) ∧
    (¬ Bears s x .halt → ¬ diverged → ¬ directed → outside → refused = some .limit) ∧
    (¬ Bears s x .halt → ¬ diverged → ¬ directed → ¬ outside → (∃ i, RefusedByRule s x b prev cand i) →
      refused = some .pair) ∧
    (¬ Bears s x .halt → ¬ diverged → ¬ directed → ¬ outside → (∀ i, ¬ RefusedByRule s x b prev cand i) →
      refused = none)

/-- The stopping distance: its formula, its exact halving, its value as the sum of the ramp steps, its largest value, and its
use in the projected stopping position and in the edges of the pair separation (R59). The ramp step is the sign of the step
times the greater of 0 and its magnitude less sdec, and one ramp step leaves the projected stopping position unchanged (R60). -/
def Obligations.StoppingDistanceSumsRampSteps : Prop :=
  (∀ sdec v : Int, 1 ≤ sdec → 0 ≤ v →
     dStop sdec v = v / sdec * v - sdec * (v / sdec) * (v / sdec + 1) / 2 ∧
     2 ∣ v / sdec * (v / sdec + 1) ∧
     dStop sdec v = ((List.range (v / sdec).toNat).map (fun k : Nat => v - ((k : Int) + 1) * sdec)).sum ∧
     (v < sdec → dStop sdec v = 0) ∧
     (v ≤ 20000 → dStop sdec v ≤ 199990000) ∧
     dStop 1 20000 = 199990000 ∧
     (∀ p, projection sdec { pos := p, step := v } = p + dStop sdec v ∧
       projection sdec { pos := p, step := -v } = p - dStop sdec v) ∧
     (∀ (b : AxisBody) (p : Int), b.sdec = sdec → 0 < v →
       lowEdge b { pos := p, step := -v } = p - b.hang - dStop sdec v ∧
       highEdge b { pos := p, step := v } = p + b.crown + dStop sdec v)) ∧
  (∀ (sdec p v : Int), 1 ≤ sdec →
     rampStep sdec v = (if 0 < v then max 0 (v - sdec) else if v < 0 then -(max 0 (-v - sdec)) else 0) ∧
     projection sdec { pos := p + rampStep sdec v, step := rampStep sdec v } = projection sdec { pos := p, step := v })

/-- At each screening of an axis that is HELD, TRACKING or STOPPING the step that its record carries changes by at most its sdec
(R60). -/
def Obligations.StepChangeIsAtMostSdec : Prop :=
  ∀ (s t : State) (x : Axis) (cmd : Instr) (req : Option Int) (e : Screening) (b : AxisBody), Lawful s →
    Screens s x cmd req e → bodyOf s x = some b → (ctxOf s x).state.inCue = true → exec cmd s = .next t →
    mag ((recordOf x (ctxOf t x)).step - (recordOf x (ctxOf s x)).step) ≤ b.sdec

/-- The edges of the pair check and the separation of a rule, with their ranges (R73, R74); and the two separations that an
entry gives in the screening of one of its axes, both against the same state of the partner: none when the entry does not name
the axis or the partner makes the rule inactive (R72, R76). -/
def Obligations.SeparationOfPairRule : Prop :=
  (∀ (bu bl : AxisBody) (u l : Motion),
     (u.step < 0 → lowEdge bu u = u.pos - bu.hang - dStop bu.sdec (mag u.step)) ∧
     (0 ≤ u.step → lowEdge bu u = u.pos - bu.hang) ∧
     (0 < l.step → highEdge bl l = l.pos + bl.crown + dStop bl.sdec l.step) ∧
     (l.step ≤ 0 → highEdge bl l = l.pos + bl.crown) ∧
     separation bu u bl l = lowEdge bu u - highEdge bl l ∧
     (bu.InRange → bl.InRange → 0 ≤ u.pos ∧ u.pos ≤ 32000000 → 0 ≤ l.pos ∧ l.pos ≤ 32000000 →
       mag u.step ≤ 20000 → mag l.step ≤ 20000 →
       -229990000 ≤ lowEdge bu u ∧ lowEdge bu u ≤ 236990000 ∧ -229990000 ≤ highEdge bl l ∧ highEdge bl l ≤ 236990000 ∧
       -466980000 ≤ separation bu u bl l ∧ separation bu u bl l ≤ 32000000)) ∧
  (∀ (s : State) (x : Axis) (b bp : AxisBody) (prev cand m : Motion) (v : PairEntry) (r : PairBody), v.body = some r →
     let active (y : Axis) : Prop := bodyOf s y = some bp ∧ ∃ p, (ctxOf s y).pos = some p ∧
       (((ctxOf s y).state = .parked ∨ (ctxOf s y).state = .held ∨ (ctxOf s y).state = .faulted) ∧ m = ⟨p, 0⟩ ∨
        ((ctxOf s y).state = .tracking ∨ (ctxOf s y).state = .stopping) ∧ m = ⟨p, (ctxOf s y).step⟩)
     let inactive (y : Axis) : Prop := (ctxOf s y).state = .unconfigured ∨ (ctxOf s y).state = .locating ∨
       (ctxOf s y).pos = none
     (r.upper = x → active r.lower →
       ruleSep s x b prev cand v = some { old := separation b prev bp m, new := separation b cand bp m }) ∧
     (r.upper ≠ x → r.lower = x → active r.upper →
       ruleSep s x b prev cand v = some { old := separation bp m b prev, new := separation bp m b cand }) ∧
     (r.upper ≠ x → r.lower ≠ x → ruleSep s x b prev cand v = none) ∧
     (r.upper = x → inactive r.lower → ruleSep s x b prev cand v = none) ∧
     (r.upper ≠ x → r.lower = x → inactive r.upper → ruleSep s x b prev cand v = none))

/-- The law of the pair rules: for a rule whose axes are both in PARKED, HELD, TRACKING or STOPPING, each screening of either
axis leaves the projected separation at least the gap, or no smaller than it was (R77). -/
def Obligations.ScreeningKeepsPairLaw : Prop :=
  ∀ (s t : State) (x : Axis) (cmd : Instr) (req : Option Int) (e : Screening) (i : PairIndex) (r : PairBody), Lawful s →
    Screens s x cmd req e → exec cmd s = .next t → (tget s.pairTab i).body = some r → r.upper = x ∨ r.lower = x →
    (ctxOf s r.upper).state = .parked ∨ (ctxOf s r.upper).state.inCue = true →
    (ctxOf s r.lower).state = .parked ∨ (ctxOf s r.lower).state.inCue = true →
    ∃ old new, ruleSeparation s r = some old ∧ ruleSeparation t r = some new ∧ (r.gap ≤ new ∨ old ≤ new)

/-- As a record is placed, an entry joins the outstanding list of its axis: in a list with room; in a full list of a FAULTED
axis in place of the oldest; and in a full list of any other axis as the only entry, with a fault taken for the axis and a
QUICKSTOP record at the frozen position. A record whose axis has become UNCONFIGURED stays in the frame without an append (R45,
R115). The context that the append found may be noted (the model's own record, log entry 29); a FAULTED axis that a feedback record
has faulted at this moment is the next statement's. -/
def Obligations.PlacedRecordJoinsOutstandingList : Prop :=
  ∀ (s : State) (e : Screening) (q : DownRecord) (rest : List DownRecord), s.engine = some e → e.todo = [] →
    AllScreened s e → e.fixed = q :: rest →
    let c := ctxOf s q.axis
    let entry : OutEntry := { seq := e.seq, pos := q.pos, cmd := q.cmd }
    let placing (sent : DownRecord) (t : State) : State :=
      { t with engine := some { e with nextAxis := 128, fixed := rest, placed := e.placed ++ [sent] } }
    let noted : State := noteJudged .engine q.axis s
    (c.state = .unconfigured → exec .outstandingAppend s = .next (placing q s)) ∧
    ((∀ found, ¬ FaultedNow s .monitor q.axis found) → c.state ≠ .unconfigured → c.outstanding.length < s.settings.lagDepth →
      exec .outstandingAppend s =
        .next (placing q (setCtx q.axis { c with outstanding := c.outstanding ++ [entry] } noted))) ∧
    ((∀ found, ¬ FaultedNow s .monitor q.axis found) → c.state = .faulted → c.outstanding.length = s.settings.lagDepth →
      exec .outstandingAppend s =
        .next (placing q (setCtx q.axis { c with outstanding := (c.outstanding ++ [entry]).drop 1 } noted))) ∧
    (c.state ≠ .unconfigured → c.state ≠ .faulted → s.settings.lagDepth ≤ c.outstanding.length →
      let sent : DownRecord := { axis := q.axis, cmd := .quickstop, pos := c.pos, step := 0 }
      let t := takeFault q.axis (if c.acked = true then .feedbackLost else .noDrive) noted
      exec .outstandingAppend s = .next (placing sent (setCtx q.axis
        { ctxOf t q.axis with outstanding := [{ seq := e.seq, pos := c.pos, cmd := .quickstop }] } t)))

/-- Two blocks judge one axis before either change reaches the store: whichever the store takes first faults the axis, and what
the other has found is a further fault (R31). An append that may have been judged in the context that a faulting feedback record
of this moment found takes its overflow there as a further fault and leaves the list with the new entry only; a feedback record
that may have been judged in the context that a faulting append of this moment found takes every fault cause it finds there as a
further fault, and the list keeps what the append left. That may be when, as the first change was made, the other block's next
step was the one for the axis: the engine was to place its record, which is then screened and fixed, or the monitor had its
record in hand. Which of the two happened is the model's free value; otherwise each is judged as the context then stands (R45,
R115, R117, R125; log entry 29). -/
def Obligations.FaultsJudgedTogetherAreFurtherFaults : Prop :=
  (∀ (s : State) (e : Screening) (q : DownRecord) (rest : List DownRecord) (found : AxisCtx), s.engine = some e → e.todo = [] →
    AllScreened s e → e.fixed = q :: rest → FaultedNow s .monitor q.axis found →
    let c := ctxOf s q.axis
    let list := c.outstanding ++ [{ seq := e.seq, pos := q.pos, cmd := q.cmd }]
    let placing (sent : DownRecord) (t : State) : State :=
      { t with engine := some { e with nextAxis := 128, fixed := rest, placed := e.placed ++ [sent] } }
    let noted : State := noteJudged .engine q.axis { s with choices := s.choices + 1, judged := none }
    let t := takeFault q.axis (if found.acked = true then .feedbackLost else .noDrive) noted
    exec .outstandingAppend s = .next (
      if Config.judgedTogether s.choices = true ∧ s.settings.lagDepth ≤ found.outstanding.length then
        placing { axis := q.axis, cmd := .quickstop, pos := c.pos, step := 0 } (setCtx q.axis
          { ctxOf t q.axis with outstanding := [{ seq := e.seq, pos := c.pos, cmd := .quickstop }] } t)
      else placing q (setCtx q.axis { c with outstanding := list.drop (list.length - s.settings.lagDepth) } noted))) ∧
  (∀ (s : State) (r : FeedbackRecord) (rest : List FeedbackRecord) (more : List (List FeedbackRecord)) (x : Axis)
    (found : AxisCtx), s.fb.frames = (r :: rest) :: more → r.axis.toNat = x.val → x ∉ s.fb.taken →
    FaultedNow s .engine x found →
    let c := ctxOf s x
    let taken := x :: s.fb.taken
    let asked : State := { s with choices := s.choices + 1, judged := none }
    (∀ older m newer b, found.outstanding = older ++ m :: newer → m.seq = r.ack → (∀ o ∈ older, o.seq ≠ r.ack) →
      bodyOf s x = some b →
      let checked := stepsTaken x r m b found (recordMatched x r rest more c.outstanding asked)
      let overloaded := b.load.any (fun l => l.overload < rawToLoad l r.rawLoad.toInt)
      exec .feedbackRecord s = .next (
        if Config.judgedTogether s.choices = true ∧ (findings r m b found ≠ [] ∨ overloaded = true) then
          recordDone x taken rest more (
            match b.load with
            | none => checked
            | some l => loadTaken x l r.rawLoad.toInt checked)
        else judgedAsStanding x r rest more asked)) ∧
    ((∀ m ∈ found.outstanding, m.seq ≠ r.ack) → exec .feedbackRecord s = .next (judgedAsStanding x r rest more asked))) ∧
  (∀ (s : State) (x : Axis),
    let noting (judge : Judge) (p : Prop) : Prop :=
      (p → noteJudged judge x s = { s with
        judged := some { judge := judge, axis := x, moment := s.now, found := ctxOf s x } }) ∧
      (¬ p → noteJudged judge x s = { s with judged := s.judged.filter (fun j => j.axis ≠ x) })
    noting .monitor (PlacesNext s x) ∧ noting .engine (ChecksNext s x))

/-! ## Faults and drive feedback (chapters 2, 7 and 8) -/

/-- A fault taken for an axis (R25, R29 to R31, R36, R136): discarded for an UNCONFIGURED axis; for a FAULTED axis the count of
further faults rises, saturating at 255, and nothing else changes; otherwise the axis enters FAULTED with its position kept and
AXIS_FAULTED is raised, with AXIS_STOPPED for a TRACKING axis, and a tare of the axis is aborted with TARE_BAD after them. -/
def Obligations.FaultTakenFreezesAxis : Prop :=
  ∀ (x : Axis) (f : AxisFault) (s : State), TareLawful s → OutputsFollow s →
    let c := ctxOf s x
    let frozen : AxisCtx := { c with
      state := .faulted, step := 0, cause := none, dest := none, reference := none, capture := false
      fault := some { what := f, further := 0 } }
    (c.state = .unconfigured → takeFault x f s = s) ∧
    (∀ r, c.state = .faulted → c.fault = some r →
      takeFault x f s = setCtx x { c with fault := some { r with further := min (r.further + 1) 255 } } s) ∧
    (∀ p, c.state = .tracking → c.pos = some p →
      takeFault x f s = raiseAll [.axisFaulted x f, .axisStopped x (.fault f.cause) p] (setCtx x frozen s)) ∧
    (c.state = .locating ∨ c.state = .parked ∨ c.state = .held ∨ c.state = .stopping →
      (∀ t, s.tare = some t → t.axis ≠ x) → takeFault x f s = raise (.axisFaulted x f) (setCtx x frozen s)) ∧
    (∀ t, s.tare = some t → t.axis = x →
      takeFault x f s = raiseAll [.axisFaulted x f, .tareBad x t.stage t.count .leftParked]
        { setCtx x frozen s with tare := none })

/-- A feedback record that names an axis above 127 or an UNCONFIGURED axis is ignored with UNKNOWN_AXIS, a second record for an
axis in one frame with DUPLICATE_RECORD, and a record that matches no entry of the axis's list with STRAY_FEEDBACK: nothing else
changes but the record's leaving the frame (R112, R113, R117; an axis that an append has faulted at this moment is the
statement's on faults judged together). -/
def Obligations.UnmatchedFeedbackIsIgnored : Prop :=
  ∀ (s : State) (r : FeedbackRecord) (rest : List FeedbackRecord) (more : List (List FeedbackRecord)),
    s.fb.frames = (r :: rest) :: more →
    (128 ≤ r.axis.toNat ∨ (∃ x : Axis, r.axis.toNat = x.val ∧ (ctxOf s x).state = .unconfigured) →
      exec .feedbackRecord s =
        .next (raise (.unknownAxis r.axis (some r.ack)) { s with fb := monitorAfter s.fb.taken rest more })) ∧
    (∀ x : Axis, r.axis.toNat = x.val → (ctxOf s x).state ≠ .unconfigured →
      (x ∈ s.fb.taken → exec .feedbackRecord s =
        .next (raise (.duplicateRecord r.axis (some r.ack)) { s with fb := monitorAfter s.fb.taken rest more })) ∧
      (x ∉ s.fb.taken → (∀ m ∈ (ctxOf s x).outstanding, m.seq ≠ r.ack) → (∀ found, ¬ FaultedNow s .engine x found) →
        exec .feedbackRecord s =
        .next (raise (.strayFeedback x r.ack) { s with fb := monitorAfter (x :: s.fb.taken) rest more })))

/-- A matched record removes the matched entry and the older ones and sets the last actual position and the drive status. For a
FAULTED axis that is all. For an axis without a load section the steps 1 to 4 of the checks follow: the fault causes they find
are taken one after another, or a LOCATING axis learns its position and is PARKED, with AXIS_LOCATED; then the brake settle
remaining falls by one (R34, R117, R119 to R125; that acked-once is set for a FAULTED axis too, and that the brake settle falls
with a record that faults the axis too, are the model's readings, log entries 10 and 11; an axis that an append has faulted at
this moment is the statement's on faults judged together). -/
def Obligations.MatchedFeedbackIsChecked : Prop :=
  ∀ (s : State) (r : FeedbackRecord) (rest : List FeedbackRecord) (more : List (List FeedbackRecord)) (x : Axis)
    (older : List OutEntry) (m : OutEntry) (newer : List OutEntry), MatchesEntry s r rest more x older m newer →
    let matched := recordMatched x r rest more newer s
    let taken := x :: s.fb.taken
    ((ctxOf s x).state = .faulted → (∀ found, ¬ FaultedNow s .engine x found) →
      exec .feedbackRecord s = .next { matched with fb := monitorAfter taken rest more }) ∧
    (∀ b, (ctxOf s x).state ≠ .faulted → bodyOf s x = some b → b.load = none →
      exec .feedbackRecord s = .next (recordDone x taken rest more
        (positionLearned x r (stepsTaken x r m b (ctxOf s x) matched))))

/-- Step 5 for an axis with a load section that was LOCATING, HELD or STOPPING, was PARKED and not under tare, or has been
faulted by the record: the load is formed from the raw load, enters the ring, the filtered load is formed, and a load above
overload is a fault; no slack or snag check and no sample follows (R119, R124, R127 to R129, R134). A LOCATING axis learns its
position in step 4 when steps 1 to 4 find no fault cause, with AXIS_LOCATED (R122), and an overload in step 5 then faults it
without a screened position (R129; that it does both is the model's reading of the two rules, log entry 28). That the load of a record which has faulted the axis enters the ring, and that its brake settle falls,
are the model's readings (log entries 15 and 11). -/
def Obligations.LoadIsRecordedAndOverloadFaults : Prop :=
  ∀ (s : State) (r : FeedbackRecord) (rest : List FeedbackRecord) (more : List (List FeedbackRecord)) (x : Axis)
    (older : List OutEntry) (m : OutEntry) (newer : List OutEntry) (b : AxisBody) (l : LoadSection),
    MatchesEntry s r rest more x older m newer → (ctxOf s x).state ≠ .faulted → bodyOf s x = some b → b.load = some l →
    let checked := stepsTaken x r m b (ctxOf s x) (recordMatched x r rest more newer s)
    let done := recordDone x (x :: s.fb.taken) rest more
    ((ctxOf s x).state ≠ .locating → (ctxOf (loadTaken x l r.rawLoad.toInt checked) x).state = .faulted ∨
        ((ctxOf s x).state ≠ .tracking ∧ ¬ ((ctxOf s x).state = .parked ∧ ∃ t, s.tare = some t ∧ t.axis = x)) →
      exec .feedbackRecord s = .next (done (loadTaken x l r.rawLoad.toInt checked))) ∧
    ((ctxOf s x).state = .locating →
      exec .feedbackRecord s = .next (done (loadTakenLocating x l r.rawLoad.toInt (positionLearned x r checked)))) ∧
    ((ctxOf s x).state = .locating → (ctxOf s x).pos = none → l.overload < rawToLoad l r.rawLoad.toInt →
      ∃ t, exec .feedbackRecord s = .next t ∧ (ctxOf t x).state = .faulted ∧ (ctxOf t x).pos = none ∧
        (findings r m b (ctxOf s x) = [] → (∀ a, s.tare = some a → a.axis ≠ x ∧ (ctxOf s a.axis).state = .parked) →
          t.ev = (raiseAll [.axisLocated x r.actual.toInt, .axisFaulted x (.overload (rawToLoad l r.rawLoad.toInt))] s).ev))

/-- The slack and snag checks of an axis that was TRACKING and that the record has not faulted: a filtered load below slack
while the step is below 0 stops it with SLACK; otherwise the first filtered load becomes the reference load of an axis that has
none, and a departure from the reference above a snag_band above 0 stops it with SNAG (R124, R129 to R131). -/
def Obligations.SlackAndSnagStopTracking : Prop :=
  ∀ (s : State) (r : FeedbackRecord) (rest : List FeedbackRecord) (more : List (List FeedbackRecord)) (x : Axis)
    (older : List OutEntry) (m : OutEntry) (newer : List OutEntry) (b : AxisBody) (l : LoadSection) (f : Int),
    MatchesEntry s r rest more x older m newer → (ctxOf s x).state = .tracking → bodyOf s x = some b → b.load = some l →
    let loaded := loadTaken x l r.rawLoad.toInt
      (stepsTaken x r m b (ctxOf s x) (recordMatched x r rest more newer s))
    let ref := (ctxOf s x).reference.getD f
    let done := recordDone x (x :: s.fb.taken) rest more
    (ctxOf loaded x).state = .tracking → (ctxOf loaded x).filtered = some f →
    ((ctxOf s x).step < 0 ∧ f < l.slack → exec .feedbackRecord s = .next (done (stoppedForGood x .slack loaded))) ∧
    (¬ ((ctxOf s x).step < 0 ∧ f < l.slack) → 0 < l.snagBand ∧ l.snagBand < mag (f - ref) →
      exec .feedbackRecord s = .next (done (stoppedForGood x .snag loaded))) ∧
    (¬ ((ctxOf s x).step < 0 ∧ f < l.slack) → ¬ (0 < l.snagBand ∧ l.snagBand < mag (f - ref)) →
      exec .feedbackRecord s =
        .next (done (setCtx x { ctxOf loaded x with reference := some ref } loaded)))

/-- A matched record that leaves a PARKED axis under tare PARKED gives a sample: the raw load joins the sum; and the sixteenth
stores the floor of the sum divided by 16 as the tare offset, empties the ring, raises TARE_DONE and leaves the engine idle (R2,
R128, R134, R135). -/
def Obligations.TareSamplesCompleteAtSixteen : Prop :=
  ∀ (s : State) (r : FeedbackRecord) (rest : List FeedbackRecord) (more : List (List FeedbackRecord)) (x : Axis)
    (older : List OutEntry) (m : OutEntry) (newer : List OutEntry) (b : AxisBody) (l : LoadSection) (t : Tare),
    MatchesEntry s r rest more x older m newer → (ctxOf s x).state = .parked → bodyOf s x = some b → b.load = some l →
    s.tare = some t → t.axis = x → findings r m b (ctxOf s x) = [] → rawToLoad l r.rawLoad.toInt ≤ l.overload →
    let loaded := loadTaken x l r.rawLoad.toInt (recordMatched x r rest more newer s)
    let sum := t.sum + r.rawLoad.toInt
    let done := recordDone x (x :: s.fb.taken) rest more
    (t.count < 15 → exec .feedbackRecord s =
      .next (done { loaded with tare := some { axis := x, stage := 1, count := t.count + 1, sum := sum } })) ∧
    (t.count = 15 → exec .feedbackRecord s =
      .next (done (raise (.tareDone x (sum / 16)) (setCtx x { ctxOf loaded x with ring := [], filtered := none }
        { loaded with
          tare := none
          axisTab := tset s.axisTab x { tget s.axisTab x with
            body := some { b with load := some { l with tareOffset := sum / 16 } } } }))))

/-! ## Interlock lines (chapter 5), events and reports (chapter 12) -/

/-- A raw level that changes: back to the settled level it cancels the pending level; otherwise it becomes the pending level and
its held time starts from 0; with a settle time of 0 it settles at once, with INTERLOCK_CHANGED; a level that the input already
has changes nothing. When the held time of a pending level reaches the settle time, the level settles, with INTERLOCK_CHANGED,
which carries whether the line is then asserted (R84 to R88; a settle time of n ms is 25,000 n ticks, log entry 1). -/
def Obligations.LineLevelsSettle : Prop :=
  (∀ (moment : Nat) (l : Line) (level : Level) (s : State),
     let x := tget s.lines l
     let now := max s.now moment
     let timed : LineState := { raw := level, settled := x.settled, pending := some level, since := now }
     (x.raw = level → exec (.interlockRawChange moment l level) s = .next { s with now := now }) ∧
     (x.raw ≠ level → x.settled = .known level → exec (.interlockRawChange moment l level) s =
       .next { s with now := now, lines := tset s.lines l { x with raw := level, pending := none } }) ∧
     (x.raw ≠ level → x.settled ≠ .known level →
       (∀ b, (tget s.lineTab l).body = some b → 0 < b.settleTime → exec (.interlockRawChange moment l level) s =
         .next { s with now := now, lines := tset s.lines l timed }) ∧
       ((∀ b, (tget s.lineTab l).body = some b → b.settleTime = 0) → exec (.interlockRawChange moment l level) s =
         .next (raise (.interlockChanged l level (assertionOf (tget s.lineTab l) level))
           { s with now := now, lines := tset s.lines l { timed with settled := .known level, pending := none } })))) ∧
  (∀ (l : Line) (level : Level) (s : State), (tget s.lines l).pending = some level →
     exec (.interlockSettle l) s = .next (raise (.interlockChanged l level (assertionOf (tget s.lineTab l) level))
       { s with
         now := max s.now ((tget s.lines l).since + settleTicks s l)
         lines := tset s.lines l { tget s.lines l with settled := .known level, pending := none } }) ∧
     ((tget s.lineTab l).body = none → settleTicks s l = 0 ∧ assertionOf (tget s.lineTab l) level = .noEntry) ∧
     (∀ b, (tget s.lineTab l).body = some b → settleTicks s l = b.settleTime * 25000 ∧
       (level = b.activeLevel → assertionOf (tget s.lineTab l) level = .asserted) ∧
       (level ≠ b.activeLevel → assertionOf (tget s.lineTab l) level = .deasserted)))

/-- An event raised is discarded when its class is masked and not retained, taken by the latch of a masked retained class, and
otherwise offered to the queue (R175, R177). Offered, it enters as the newest of its class when there is room; at a full queue
it takes the place of the newest event of the largest class present when that class is above its own, and otherwise it is
discarded; either discard sets the lost flag (R178; that the settings of the flag are counted is log entry 13). -/
def Obligations.EventUnitTakesEvents : Prop :=
  (∀ (ev : Event) (u : EventUnit),
     (u.mask.getLsbD (ev.cls.number - 1) = false → u.raise ev = u.offer { event := ev, count := 1 }) ∧
     (u.mask.getLsbD (ev.cls.number - 1) = true → ev.cls.latch = none → u.raise ev = u) ∧
     (∀ k, u.mask.getLsbD (ev.cls.number - 1) = true → ev.cls.latch = some k →
       (tget u.latches k = none → u.raise ev = { u with latches := tset u.latches k (some { event := ev, count := 1 }) }) ∧
       (∀ q, tget u.latches k = some q →
         u.raise ev = { u with latches := tset u.latches k (some { event := ev, count := min (q.count + 1) 255 }) })) ∧
     (∀ k, ev.cls.latch = some k ↔ ev.cls.number = k.val + 1)) ∧
  (∀ (q : QueuedEvent) (u : EventUnit), u.Lawful →
     let lost : EventUnit := { u with lost := true, lostSets := u.lostSets + 1 }
     (u.queue.length < 32 → ∃ before behind, u.queue = before ++ behind ∧
       (∀ y ∈ before, y.rank ≤ q.rank) ∧ (∀ y ∈ behind, q.rank < y.rank) ∧
       u.offer q = { u with queue := before ++ q :: behind }) ∧
     (∀ last, u.queue.length = 32 → u.queue.getLast? = some last →
       (q.rank < last.rank → ∃ before behind, u.queue.dropLast = before ++ behind ∧
         (∀ y ∈ before, y.rank ≤ q.rank) ∧ (∀ y ∈ behind, q.rank < y.rank) ∧
         u.offer q = { lost with queue := before ++ q :: behind }) ∧
       (last.rank ≤ q.rank → u.offer q = lost)))

/-- At each expiry the report timer restarts with the period. When the report slot is empty a report frame is built from the
summary of the part, up to 12 answers and then events up to 12 in all, which leave their queues, and goes to the C-port or waits
in the report slot; when the slot is occupied nothing else changes (R158, R179 to R181; a half millisecond is 12,500 ticks and
the expiry is taken at its due moment or later, log entry 1; the two stamps are log entry 13). -/
def Obligations.ReportTimerBuildsReport : Prop :=
  ∀ s : State,
    let now := max s.now s.ev.reportDue
    let due := now + s.settings.period * 12500
    let answers := s.req.answers.take 12
    let events := s.ev.queue.take (12 - answers.length)
    let waiting := s.ev.queue.drop (12 - answers.length)
    let frame : ReportFrame := {
      source := s.settings.node
      seq := s.cyc.downSeq
      summary := {
        mode := s.req.mode
        active := s.active.map CueGroup.number
        staged := s.staged.map CueGroup.number
        lost := s.ev.lost
        dropped := s.req.dropped
        counts := [AxisState.unconfigured, .locating, .parked, .held, .tracking, .stopping, .faulted].map
          (fun a => (s.ctx.toList.filter (fun c => c.state == a)).length)
        levels := allLines.map (fun l => (tget s.lines l).settled)
        late := s.cyc.late
        waiting := waiting.length }
      answers := answers
      events := events
      lostStamp := s.ev.lostSets
      droppedStamp := s.req.droppedSets }
    (s.up.slot ≠ none →
      exec .reportTimerExpiry s = .next { s with now := now, ev := { s.ev with reportDue := due } }) ∧
    (s.up.slot = none → exec .reportTimerExpiry s = .next { s with
      now := now
      ev := { s.ev with reportDue := due, queue := waiting }
      req := { s.req with answers := s.req.answers.drop 12 }
      up := if s.up.tx = none ∧ s.up.queue = [] then { s.up with tx := some (.report frame) }
        else { s.up with slot := some frame } })

/-! ## Requests (chapters 1, 4 to 6, 8, 11 and 12) -/

/-- Each request queues exactly one answer as it is carried out, with its tag and its kind; the frames go on with the request
behind it. A refused request changes no state and raises no event, but for the PROTECTION of a refusal PROTECTED; a request of
an unknown kind is answered UNKNOWN_REQUEST (R160, R162, R163). -/
def Obligations.RequestIsAnsweredOnce : Prop :=
  ∀ (e : Envelope) (rest : List Envelope) (more : List (List Envelope)) (s : State), FrontRequest e rest more s →
    ∃ t result body, exec (requestStep e.kind) s = .next t ∧
      t.req.frames = framesLeft rest more ∧
      t.req.answers = (if e.kind = 8 ∧ result = .accepted then [] else s.req.answers) ++ [⟨e.tag, e.kind, result, body⟩] ∧
      (result ≠ .accepted → t = answered e rest more result body s ∨
        (result = .isProtected ∧ ∃ table index, t = protectedAnswer e rest more table index s)) ∧
      (¬ (1 ≤ e.kind.toNat ∧ e.kind.toNat ≤ 20) → t = answered e rest more .unknownRequest .empty s)

/-- MODE: the target judged against the mode, the moving axes and a tare in flight; an accepted MODE sets the mode and aborts a
tare in flight with TARE_BAD (R136, R160, R165). -/
def Obligations.ModeRequestJudged : Prop :=
  ∀ (e : Envelope) (rest : List Envelope) (more : List (List Envelope)) (s : State), FrontRequest e rest more s → e.kind = 1 →
    let refusedWith (r : Result) (body : AnswerBody) := exec .mode s = .next (answered e rest more r body s)
    let accepted (m : Mode) := exec .mode s = .next (answered e rest more .accepted .empty (
      match s.tare with
      | none => { s with req := { s.req with mode := m } }
      | some t => raise (.tareBad t.axis t.stage t.count .mode)
          { s with req := { s.req with mode := m }, tare := none }))
    (e.body.length ≠ 1 → refusedWith .badField (.badField 0)) ∧
    (∀ n, e.body = [n] → n ≠ 1 → n ≠ 2 → refusedWith .badField (.badField 1)) ∧
    (e.body = [1] → s.req.mode = .start ∨ s.req.mode = .commission → accepted .commission) ∧
    (e.body = [2] → s.req.mode = .start → refusedWith .wrongMode .empty) ∧
    (e.body = [2] → s.req.mode = .commission → Moving s → refusedWith .axisMoving .empty) ∧
    (e.body = [2] → s.req.mode = .commission → ¬ Moving s → s.tare ≠ none → refusedWith .busy .empty) ∧
    (e.body = [2] → s.req.mode = .commission → ¬ Moving s → s.tare = none → accepted .inShow) ∧
    (e.body = [1] → s.req.mode = .inShow → Moving s → refusedWith .axisMoving .empty) ∧
    (e.body = [1] → s.req.mode = .inShow → ¬ Moving s → accepted .commission) ∧
    (e.body = [2] → s.req.mode = .inShow → accepted .inShow)

/-- GET_ENTRY, GET_AXIS and GET_SETTINGS answer what stands, in every mode, and change nothing; a request of a kind outside 1 to
20 is answered UNKNOWN_REQUEST and changes nothing (R38, R71, R93, R160, R170). GET_AXIS answers the context and the tare offset
of the axis's load section (R7, R38; for the tare offset section 10.10 lays out no bytes: log entry 27). -/
def Obligations.ReadsAnswerWhatStands : Prop :=
  ∀ (e : Envelope) (rest : List Envelope) (more : List (List Envelope)) (s : State), FrontRequest e rest more s →
    (∀ b1 b0, e.kind = 2 → e.body = [1, b1, b0] →
      (∀ x : Axis, x.val = (word16 b1 b0).toNat → exec .getEntry s =
        .next (answered e rest more .accepted (.axisEntry x (tget s.axisTab x)) s)) ∧
      (128 ≤ (word16 b1 b0).toNat → exec .getEntry s = .next (answered e rest more .badIndex .empty s))) ∧
    (∀ b1 b0, e.kind = 2 → e.body = [2, b1, b0] →
      (∀ i : PairIndex, i.val = (word16 b1 b0).toNat → exec .getEntry s =
        .next (answered e rest more .accepted (.pairEntry i (tget s.pairTab i)) s)) ∧
      (512 ≤ (word16 b1 b0).toNat → exec .getEntry s = .next (answered e rest more .badIndex .empty s))) ∧
    (∀ b1 b0, e.kind = 2 → e.body = [3, b1, b0] →
      (∀ l : Line, l.val = (word16 b1 b0).toNat → exec .getEntry s =
        .next (answered e rest more .accepted (.lineEntry l (tget s.lineTab l) (tget s.lines l).settled) s)) ∧
      (16 ≤ (word16 b1 b0).toNat → exec .getEntry s = .next (answered e rest more .badIndex .empty s))) ∧
    (∀ n, e.kind = 3 → e.body = [n] →
      (∀ x : Axis, x.val = n.toNat → exec .getAxis s = .next (answered e rest more .accepted (.context (ctxOf s x)
        (match bodyOf s x with
         | some { load := some l, .. } => some l.tareOffset
         | _ => none)) s)) ∧
      (128 ≤ n.toNat → exec .getAxis s = .next (answered e rest more .badIndex .empty s))) ∧
    (e.kind = 4 → e.body = [] → exec .getSettings s =
      .next (answered e rest more .accepted (.settings s.settings) s)) ∧
    (¬ (1 ≤ e.kind.toNat ∧ e.kind.toNat ≤ 20) → exec .unknownRequest s =
      .next (answered e rest more .unknownRequest .empty s))

/-- SET_MASK replaces the mask and offers the latched event of each retained class that it unmasks, in ascending class number,
emptying its latch (R176, R177). -/
def Obligations.SetMaskOffersLatchedEvents : Prop :=
  ∀ (e : Envelope) (rest : List Envelope) (more : List (List Envelope)) (s : State) (m : Byte), FrontRequest e rest more s →
    e.kind = 5 → e.body = [m] →
    let unmasked (k : Fin 4) : Bool := s.ev.mask.getLsbD k && !m.getLsbD k
    exec .setMask s = .next (answered e rest more .accepted .empty { s with
      ev := ((List.finRange 4).filterMap (fun k => if unmasked k then tget s.ev.latches k else none)).foldl
        (fun u q => u.offer q)
        { s.ev with
          mask := m.setWidth 7
          latches := tmap (fun k q => if unmasked k then none else q) s.ev.latches } })

/-- HALT_AXES stops each named TRACKING axis with STOP_REQUEST, with AXIS_STOPPED in ascending axis number, clears the capture
permission of each named HELD or STOPPING axis, and answers how many it stopped and how many it disarmed; a list with a number
above 127 is refused (R25, R108). -/
def Obligations.HaltStopsAndDisarms : Prop :=
  ∀ (e : Envelope) (rest : List Envelope) (more : List (List Envelope)) (s : State) (list : AxisList),
    FrontRequest e rest more s → e.kind = 6 → decodeAxisList e.body = .ok list →
    (list.toSet = none → exec .haltAxes s = .next (answered e rest more .badField (.badField 1) s)) ∧
    (∀ named : AxisSet, list.toSet = some named →
      let halted (c : AxisCtx) : AxisCtx := match c.state with
        | .tracking => { c with
            state := .stopping, cause := some .stopRequest, dest := some .held, reference := none, capture := false }
        | .held => { c with cause := some .stopRequest, capture := false }
        | .stopping => { c with capture := false }
        | _ => c
      let stopped := allAxes.filter (fun x => named.covers x ∧ (ctxOf s x).state = .tracking)
      let disarmed := allAxes.filter (fun x => named.covers x ∧
        ((ctxOf s x).state = .held ∨ (ctxOf s x).state = .stopping) ∧ (ctxOf s x).capture = true)
      exec .haltAxes s = .next (answered e rest more .accepted (.halted stopped.length disarmed.length)
        (raiseAll (stopped.map (fun x => .axisStopped x (.stop .stopRequest) ((ctxOf s x).pos.getD 0)))
          (mapCtx (fun x c => if named.covers x then halted c else c) s))))

/-- CLEAR_FAULT takes a FAULTED axis to LOCATING with the values it is entered with; TARE starts a tare in flight; UNTARE sets
the tare offset to 0 and empties the load ring; each refused in the order of its checks (R20, R32, R133, R138). -/
def Obligations.ClearTareAndUntareJudged : Prop :=
  ∀ (e : Envelope) (rest : List Envelope) (more : List (List Envelope)) (s : State) (n : Byte), FrontRequest e rest more s →
    e.body = [n] →
    let refusedWith (cmd : Instr) (r : Result) := exec cmd s = .next (answered e rest more r .empty s)
    (e.kind = 7 → 128 ≤ n.toNat → refusedWith .clearFault .badIndex) ∧
    (e.kind = 16 ∨ e.kind = 17 → s.req.mode ≠ .commission → refusedWith (requestStep e.kind) .wrongMode) ∧
    (e.kind = 16 ∨ e.kind = 17 → s.req.mode = .commission → 128 ≤ n.toNat → refusedWith (requestStep e.kind) .badIndex) ∧
    (∀ x : Axis, x.val = n.toNat →
      (e.kind = 7 → (ctxOf s x).state ≠ .faulted → refusedWith .clearFault .notFaulted) ∧
      (e.kind = 7 → (ctxOf s x).state = .faulted → exec .clearFault s =
        .next (answered e rest more .accepted .empty (setCtx x { AxisCtx.cleared with state := .locating } s))) ∧
      (e.kind = 16 ∨ e.kind = 17 → s.req.mode = .commission → (∀ b, bodyOf s x = some b → b.load = none) →
        refusedWith (requestStep e.kind) .noLoadCell) ∧
      (∀ b l, s.req.mode = .commission → bodyOf s x = some b → b.load = some l →
        (e.kind = 16 → (ctxOf s x).state ≠ .parked → refusedWith .tare .notParked) ∧
        (e.kind = 16 → (ctxOf s x).state = .parked → s.tare ≠ none → refusedWith .tare .busy) ∧
        (e.kind = 16 → (ctxOf s x).state = .parked → s.tare = none → exec .tare s =
          .next (answered e rest more .accepted (.tareStage 0)
            { s with tare := some { axis := x, stage := 0, count := 0, sum := 0 } })) ∧
        (e.kind = 17 → (∃ t, s.tare = some t ∧ t.axis = x) → refusedWith .untare .busy) ∧
        (e.kind = 17 → (∀ t, s.tare = some t → t.axis ≠ x) → exec .untare s =
          .next (answered e rest more .accepted .empty (setCtx x
            { ctxOf s x with
              ring := [], filtered := none
              reference := if (ctxOf s x).state = .tracking then none else (ctxOf s x).reference }
            { s with axisTab := tset s.axisTab x { tget s.axisTab x with
                body := some { b with load := some { l with tareOffset := 0 } } } })))))

/-- RESTART is refused while an axis is TRACKING or STOPPING; accepted, it returns each block to the state that its owner gives
it, answers last, and settles the lines that have no settle time, with their INTERLOCK_CHANGED in the emptied queue (R20, R41,
R87, R98, R132, R149, R161, R173, R174; that a frame in the engine is screened on is log entry 24, and that the lines which
settle with it raise their events in ascending number is log entry 25). -/
def Obligations.RestartReturnsEveryOwner : Prop :=
  ∀ (e : Envelope) (rest : List Envelope) (more : List (List Envelope)) (s : State), FrontRequest e rest more s →
    e.kind = 8 → e.body = [] →
    (Moving s → exec .restart s = .next (answered e rest more .axisMoving .empty s)) ∧
    (¬ Moving s → ∃ t, exec .restart s = .next t ∧
      t.req = { mode := .commission, answers := [⟨e.tag, e.kind, .accepted, .empty⟩], frames := framesLeft rest more,
                dropped := false, droppedSets := s.req.droppedSets } ∧
      (∀ x, ctxOf t x = if (ctxOf s x).state = .unconfigured then ctxOf s x
        else { AxisCtx.cleared with state := .locating }) ∧
      (∀ i, tget t.pairTab i = { tget s.pairTab i with warning := false }) ∧
      t.active = none ∧ t.staged = none ∧ t.tare = none ∧
      (∀ l, tget t.lines l =
        if settleTicks s l = 0 then
          { raw := (tget s.lines l).raw, settled := .known (tget s.lines l).raw, pending := none, since := s.now }
        else { raw := (tget s.lines l).raw, settled := .unsettled, pending := some (tget s.lines l).raw, since := s.now }) ∧
      t.cyc = { cadence := if s.cyc.cadence = .screening then .screening else .stopped, mark := none, timer := false,
                conSeq := none, downSeq := s.cyc.downSeq, late := 0 } ∧
      t.engine = s.engine.map (fun f => { f with restarted := true }) ∧
      t.ev = (raiseAll ((allLines.filter (fun l => settleTicks s l = 0)).map (fun l =>
          .interlockChanged l (tget s.lines l).raw (assertionOf (tget s.lineTab l) (tget s.lines l).raw)))
        { s with ev := { s.ev with queue := [], latches := Vector.replicate 4 none, lost := false } }).ev ∧
      t = { s with ctx := t.ctx, anyFault := t.anyFault, inMotion := t.inMotion, pairTab := t.pairTab, active := t.active,
                   staged := t.staged, tare := t.tare, lines := t.lines, cyc := t.cyc, engine := t.engine, ev := t.ev,
                   req := t.req })

/-- The range checks of table and settings bodies find nothing exactly when every field lies in its range, and otherwise name
the first field that fails in field-number order: a range stated in terms of an earlier field fails at the later one, fields 11
to 16 are tested with a load section only, a speed_cap for SLOW only, and a grace above half the period fails field 3 (R11, R68,
R91, R172). -/
def Obligations.RangeChecksFollowTables : Prop :=
  (∀ (b : AxisBody) (f : Nat), firstBad b.checks = some f ↔ FirstFailing b.Fails f) ∧
  (∀ (b : PairFields) (f : Nat), firstBad b.checks = some f ↔ FirstFailing b.Fails f) ∧
  (∀ (b : InterlockFields) (f : Nat), firstBad b.checks = some f ↔ FirstFailing b.Fails f) ∧
  (∀ (r : Settings) (f : Nat), firstBad r.checks = some f ↔ FirstFailing r.Fails f) ∧
  (∀ b : AxisBody, firstBad b.checks = none ↔ b.InRange) ∧
  (∀ r : Settings, firstBad r.checks = none ↔ r.InRange) ∧
  (∀ f : PairFields, (firstBad f.checks = none → ∃ b, f.body = some b ∧ b.InRange ∧ b.upper.val = f.upper ∧
    b.lower.val = f.lower ∧ b.gap = f.gap ∧ b.warn = f.warn) ∧
    (∀ b, f.body = some b → b.InRange → firstBad f.checks = none)) ∧
  (∀ f : InterlockFields,
    (firstBad f.checks = none → ∃ b, f.body = some b ∧ b.InRange ∧ b.settleTime = f.settleTime) ∧
    (∀ b, f.body = some b → b.InRange → firstBad f.checks = none))

/-- PUT_AXIS: the checks in their order, and the accepted write, which takes an UNCONFIGURED axis to LOCATING and empties the
load ring of any other (R9 to R14, R20, R168). -/
def Obligations.PutAxisJudgedAndWritten : Prop :=
  ∀ (e : Envelope) (rest : List Envelope) (more : List (List Envelope)) (s : State), FrontRequest e rest more s →
    e.kind = 11 →
    let answers (r : Result) (body : AnswerBody) := exec .putAxis s = .next (answered e rest more r body s)
    (∀ f, decodePutAxis e.body = .error f → answers .badField (.badField f)) ∧
    (∀ n b, decodePutAxis e.body = .ok (n, b) →
      (128 ≤ n → answers .badIndex .empty) ∧
      (∀ x : Axis, x.val = n →
        (Protected s (tget s.axisTab x).locked →
          exec .putAxis s = .next (protectedAnswer e rest more .axisTable x.val s)) ∧
        (¬ Protected s (tget s.axisTab x).locked →
          (∀ f, firstBad b.checks = some f → answers .badField (.badField f)) ∧
          (b.InRange → (ctxOf s x).state.inCue = true → answers .axisMoving .empty) ∧
          (b.InRange → (ctxOf s x).state.inCue = false →
            ((∃ t, s.tare = some t ∧ t.axis = x) → answers .busy .empty) ∧
            ((∀ t, s.tare = some t → t.axis ≠ x) →
              (∀ p, (ctxOf s x).state = .parked → (ctxOf s x).pos = some p → p < b.lower ∨ b.upper < p →
                answers .outOfLimits (.outOfLimits p)) ∧
              ((∀ p, (ctxOf s x).state = .parked → (ctxOf s x).pos = some p → b.lower ≤ p ∧ p ≤ b.upper) →
                exec .putAxis s = .next (answered e rest more .accepted .empty (setCtx x
                  (if (ctxOf s x).state = .unconfigured then { AxisCtx.cleared with state := .locating }
                   else { ctxOf s x with ring := [], filtered := none })
                  { s with axisTab := tset s.axisTab x { tget s.axisTab x with body := some b } }))))))))

/-- PUT_PAIR: the checks in their order, and the accepted write, which clears the in-warning flag and keeps the locked flag; a
pair that another entry holds is refused with the lowest such index (R67 to R69, R168). PUT_INTERLOCK: the checks in their
order, and the accepted write, with which a pending level that has held for the new settle time settles (R86, R91, R92, R168).
-/
def Obligations.PairAndInterlockPutsJudged : Prop :=
  (∀ (e : Envelope) (rest : List Envelope) (more : List (List Envelope)) (s : State) (n : Nat) (f : PairFields),
     FrontRequest e rest more s → e.kind = 9 → decodePutPair e.body = .ok (n, f) →
     let answers (r : Result) (body : AnswerBody) := exec .putPair s = .next (answered e rest more r body s)
     (512 ≤ n → answers .badIndex .empty) ∧
     (∀ i : PairIndex, i.val = n →
       let holds (b : PairBody) (j : PairIndex) : Prop := j ≠ i ∧
         ∃ c, (tget s.pairTab j).body = some c ∧ c.upper = b.upper ∧ c.lower = b.lower
       (Protected s (tget s.pairTab i).locked → exec .putPair s = .next (protectedAnswer e rest more .pairTable i.val s)) ∧
       (¬ Protected s (tget s.pairTab i).locked →
         (∀ k, firstBad f.checks = some k → answers .badField (.badField k)) ∧
         (∀ b, firstBad f.checks = none → f.body = some b →
           (∀ j, holds b j → (∀ k, k < j → ¬ holds b k) → answers .duplicatePair (.duplicatePair j)) ∧
           ((∀ j, ¬ holds b j) → exec .putPair s = .next (answered e rest more .accepted .empty
             { s with
               pairTab := tset s.pairTab i { body := some b, locked := (tget s.pairTab i).locked, warning := false } })))))) ∧
  (∀ (e : Envelope) (rest : List Envelope) (more : List (List Envelope)) (s : State) (n : Nat) (f : InterlockFields),
     FrontRequest e rest more s → e.kind = 10 → decodePutInterlock e.body = .ok (n, f) →
     let answers (r : Result) (body : AnswerBody) := exec .putInterlock s = .next (answered e rest more r body s)
     (16 ≤ n → answers .badIndex .empty) ∧
     (∀ l : Line, l.val = n →
       (Protected s (tget s.lineTab l).locked →
         exec .putInterlock s = .next (protectedAnswer e rest more .lineTable l.val s)) ∧
       (¬ Protected s (tget s.lineTab l).locked →
         (∀ k, firstBad f.checks = some k → answers .badField (.badField k)) ∧
         (∀ b, firstBad f.checks = none → f.body = some b →
           exec .putInterlock s = .next (answered e rest more .accepted .empty (settledNow l
             { s with lineTab := tset s.lineTab l { body := some b, locked := (tget s.lineTab l).locked } }))))))

/-- ERASE_ENTRY on the axis table: the checks in their order, and the erase, which clears the context and takes the axis out of
both cue groups (R16, R17, R98, R168); on the pair table and on the interlock table likewise, and with an interlock entry a
pending level of its line settles, since its settle time becomes 0 (R70, R86, R93, R168). -/
def Obligations.ErasesJudgedAndErased : Prop :=
  (∀ (e : Envelope) (rest : List Envelope) (more : List (List Envelope)) (s : State) (b1 b0 : Byte),
     FrontRequest e rest more s → e.kind = 12 → e.body = [1, b1, b0] →
     let answers (r : Result) := exec .eraseEntry s = .next (answered e rest more r .empty s)
     (128 ≤ (word16 b1 b0).toNat → answers .badIndex) ∧
     (∀ x : Axis, x.val = (word16 b1 b0).toNat →
       let without (g : CueGroup) : CueGroup := { g with axes := g.axes.filter (fun y => y ≠ x) }
       (Protected s (tget s.axisTab x).locked →
         exec .eraseEntry s = .next (protectedAnswer e rest more .axisTable x.val s)) ∧
       (¬ Protected s (tget s.axisTab x).locked →
         (bodyOf s x = none → answers .notConfigured) ∧
         (bodyOf s x ≠ none → (ctxOf s x).state.inCue = true → answers .axisMoving) ∧
         (bodyOf s x ≠ none → (ctxOf s x).state.inCue = false →
           ((∃ t, s.tare = some t ∧ t.axis = x) → answers .busy) ∧
           ((∀ t, s.tare = some t → t.axis ≠ x) →
             exec .eraseEntry s = .next (answered e rest more .accepted .empty (setCtx x AxisCtx.cleared
               { s with
                 axisTab := tset s.axisTab x { body := none, locked := false }
                 active := s.active.map without
                 staged := s.staged.map without }))))))) ∧
  (∀ (e : Envelope) (rest : List Envelope) (more : List (List Envelope)) (s : State) (b1 b0 : Byte),
     FrontRequest e rest more s → e.kind = 12 →
     let answers (r : Result) := exec .eraseEntry s = .next (answered e rest more r .empty s)
     (e.body = [2, b1, b0] → 512 ≤ (word16 b1 b0).toNat → answers .badIndex) ∧
     (e.body = [3, b1, b0] → 16 ≤ (word16 b1 b0).toNat → answers .badIndex) ∧
     (∀ i : PairIndex, e.body = [2, b1, b0] → i.val = (word16 b1 b0).toNat →
       (Protected s (tget s.pairTab i).locked →
         exec .eraseEntry s = .next (protectedAnswer e rest more .pairTable i.val s)) ∧
       (¬ Protected s (tget s.pairTab i).locked →
         ((tget s.pairTab i).body = none → answers .notConfigured) ∧
         ((tget s.pairTab i).body ≠ none → exec .eraseEntry s = .next (answered e rest more .accepted .empty
           { s with pairTab := tset s.pairTab i { body := none, locked := false, warning := false } })))) ∧
     (∀ l : Line, e.body = [3, b1, b0] → l.val = (word16 b1 b0).toNat →
       (Protected s (tget s.lineTab l).locked →
         exec .eraseEntry s = .next (protectedAnswer e rest more .lineTable l.val s)) ∧
       (¬ Protected s (tget s.lineTab l).locked →
         ((tget s.lineTab l).body = none → answers .notConfigured) ∧
         ((tget s.lineTab l).body ≠ none → exec .eraseEntry s = .next (answered e rest more .accepted .empty (settledNow l
           { s with lineTab := tset s.lineTab l { body := none, locked := false } }))))))

/-- PUT_SETTINGS is refused outside COMMISSION, then for a field out of range, then while an axis is HELD, TRACKING or STOPPING;
accepted, it writes the record and trims each outstanding list to its newest entries up to the new lag depth (R116, R172). -/
def Obligations.PutSettingsJudgedAndWritten : Prop :=
  ∀ (e : Envelope) (rest : List Envelope) (more : List (List Envelope)) (s : State) (r : Settings),
    FrontRequest e rest more s → e.kind = 13 → decodeSettings e.body = .ok r →
    let answers (res : Result) (body : AnswerBody) := exec .putSettings s = .next (answered e rest more res body s)
    (s.req.mode ≠ .commission → answers .wrongMode .empty) ∧
    (s.req.mode = .commission →
      (∀ f, firstBad r.checks = some f → answers .badField (.badField f)) ∧
      (r.InRange → SomeInCue s → answers .axisMoving .empty) ∧
      (r.InRange → ¬ SomeInCue s → exec .putSettings s = .next (answered e rest more .accepted .empty
        (mapCtx (fun _ c => { c with outstanding := c.outstanding.drop (c.outstanding.length - r.lagDepth) })
          { s with settings := r }))))

/-- LOCK_ENTRY sets and UNLOCK_ENTRY clears the locked flag of a present entry, and nothing else: outside COMMISSION they are
refused WRONG_MODE, then an index above the table's last BAD_INDEX, then an absent entry NOT_CONFIGURED (R167, R169). -/
def Obligations.LockAndUnlockWriteFlagOnly : Prop :=
  ∀ (e : Envelope) (rest : List Envelope) (more : List (List Envelope)) (s : State) (cmd : Instr) (flag : Bool)
    (t b1 b0 : Byte),
    FrontRequest e rest more s → (e.kind = 14 ∧ cmd = .lockEntry ∧ flag = true ∨
      e.kind = 15 ∧ cmd = .unlockEntry ∧ flag = false) → e.body = [t, b1, b0] → t = 1 ∨ t = 2 ∨ t = 3 →
    let n := (word16 b1 b0).toNat
    let answers (r : Result) := exec cmd s = .next (answered e rest more r .empty s)
    let accepted (u : State) := exec cmd s = .next (answered e rest more .accepted .empty u)
    (s.req.mode ≠ .commission → answers .wrongMode) ∧
    (s.req.mode = .commission →
      (t = 1 ∧ 127 < n ∨ t = 2 ∧ 511 < n ∨ t = 3 ∧ 15 < n → answers .badIndex) ∧
      (∀ x : Axis, t = 1 → x.val = n →
        ((tget s.axisTab x).body = none → answers .notConfigured) ∧
        ((tget s.axisTab x).body ≠ none →
          accepted { s with axisTab := tset s.axisTab x { tget s.axisTab x with locked := flag } })) ∧
      (∀ i : PairIndex, t = 2 → i.val = n →
        ((tget s.pairTab i).body = none → answers .notConfigured) ∧
        ((tget s.pairTab i).body ≠ none →
          accepted { s with pairTab := tset s.pairTab i { tget s.pairTab i with locked := flag } })) ∧
      (∀ l : Line, t = 3 → l.val = n →
        ((tget s.lineTab l).body = none → answers .notConfigured) ∧
        ((tget s.lineTab l).body ≠ none →
          accepted { s with lineTab := tset s.lineTab l { tget s.lineTab l with locked := flag } })))

/-- STAGE_CUE: the checks in their order, the first listed axis that fails in ascending number, and the staged slot filled (R100
to R102). -/
def Obligations.StageCueJudgedAndStaged : Prop :=
  ∀ (e : Envelope) (rest : List Envelope) (more : List (List Envelope)) (s : State) (cue : Word16) (list : AxisList),
    FrontRequest e rest more s → e.kind = 18 → decodeCue e.body = .ok (cue, list) →
    let answers (r : Result) (body : AnswerBody) := exec .stageCue s = .next (answered e rest more r body s)
    let passes (x : Axis) : Prop := (ctxOf s x).state = .parked ∨ (ctxOf s x).state.inCue = true
    (s.req.mode = .start → answers .wrongMode .empty) ∧
    (s.req.mode ≠ .start →
      (list.toSet = none → answers .badField (.badField 2)) ∧
      (∀ set : AxisSet, list.toSet = some set →
        (s.staged ≠ none → answers .pendingFull .empty) ∧
        (s.staged = none →
          (∀ x, x ∈ set.members → (∀ y, y ∈ set.members → y < x → passes y) →
            ((ctxOf s x).state = .unconfigured → answers .notConfigured (.axis x)) ∧
            ((ctxOf s x).state = .locating → answers .notPositioned (.axis x)) ∧
            ((ctxOf s x).state = .faulted → answers .axisFaulted (.axis x))) ∧
          ((∀ x, x ∈ set.members → passes x) → exec .stageCue s =
            .next (answered e rest more .accepted (.staged set.members.length)
              { s with staged := some { number := cue, axes := set.members } })))))

/-- DROP_CUE is refused WRONG_MODE in START; in COMMISSION and SHOW it empties the staged slot, and nothing else, and answers
the cue number dropped, or none when the slot was empty (R107). -/
def Obligations.DropCueEmptiesStagedSlot : Prop :=
  ∀ (e : Envelope) (rest : List Envelope) (more : List (List Envelope)) (s : State), FrontRequest e rest more s →
    e.kind = 20 → e.body = [] →
    (s.req.mode = .start → exec .dropCue s = .next (answered e rest more .wrongMode .empty s)) ∧
    (s.req.mode = .commission ∨ s.req.mode = .inShow → exec .dropCue s =
      .next (answered e rest more .accepted (.dropped (s.staged.map CueGroup.number)) { s with staged := none }))

/-- TAKE_CUE is refused in START and when nothing is staged; accepted, it moves the staged group into the active slot and hands
over every axis by its state and its membership, with AXIS_STOPPED for each TRACKING axis released, in ascending axis number,
and a tare aborted when its axis leaves PARKED (R103 to R105, R136; that a released TRACKING axis keeps its capture permission
is the model's reading, log entry 12). -/
def Obligations.TakeCueHandsOver : Prop :=
  ∀ (e : Envelope) (rest : List Envelope) (more : List (List Envelope)) (s : State), FrontRequest e rest more s →
    e.kind = 19 → e.body = [] →
    (s.req.mode = .start → exec .takeCue s = .next (answered e rest more .wrongMode .empty s)) ∧
    (s.req.mode ≠ .start → s.staged = none → exec .takeCue s = .next (answered e rest more .nothingPending .empty s)) ∧
    (∀ g, s.req.mode ≠ .start → s.staged = some g → ∃ t, exec .takeCue s = .next t ∧
      t.active = some g ∧ t.staged = none ∧
      t.req.answers = s.req.answers ++ [⟨e.tag, e.kind, .accepted, .taken g.number
        (g.axes.filter (fun x => (ctxOf s x).state = .parked ∨ (ctxOf s x).state.inCue = true)).length
        (g.axes.filter (fun x => ¬ ((ctxOf s x).state = .parked ∨ (ctxOf s x).state.inCue = true))).length⟩] ∧
      (∀ x, x ∈ g.axes → ctxOf t x = match (ctxOf s x).state with
        | .parked => { ctxOf s x with state := .held, step := 0, cause := some .taken, capture := true }
        | .held => { ctxOf s x with capture := true }
        | .stopping => { ctxOf s x with dest := some .held, capture := true }
        | _ => ctxOf s x) ∧
      (∀ x, x ∉ g.axes → ctxOf t x = match (ctxOf s x).state with
        | .held => { ctxOf s x with
            state := .parked, step := 0, settle := s.settings.brakeSettle, cause := none, dest := none
            capture := false, reference := none }
        | .tracking => { ctxOf s x with
            state := .stopping, cause := some .released, dest := some .parked, reference := none }
        | .stopping => { ctxOf s x with dest := some .parked }
        | _ => ctxOf s x) ∧
      t.ev = (raiseAll (((allAxes.filter (fun x => (ctxOf s x).state = .tracking ∧ x ∉ g.axes)).map (fun x =>
          .axisStopped x (.stop .released) ((ctxOf s x).pos.getD 0))) ++
        (match s.tare, t.tare with
          | some a, none => [.tareBad a.axis a.stage a.count .leftParked]
          | _, _ => [])) s).ev ∧
      (s.tare = none → t.tare = none) ∧
      (∀ a, s.tare = some a → (ctxOf t a.axis).state ≠ .parked → t.tare = none) ∧
      (∀ a, s.tare = some a → (ctxOf t a.axis).state = .parked → t.tare = s.tare) ∧
      t = { s with ctx := t.ctx, anyFault := t.anyFault, inMotion := t.inMotion, active := t.active, staged := t.staged,
                   tare := t.tare, ev := t.ev, req := { s.req with
                     answers := t.req.answers, frames := framesLeft rest more } })

/-! ## Resets and invariants -/

/-- After power-on reset every block holds its power-on value, each line has settled at its raw level, and the sixteen
INTERLOCK_CHANGED events, with NO_ENTRY, are the first events queued (R41, R87; the steps that wait are kept, the lines
settle in ascending number, and the count of free values asked for goes on: log entries 7, 25 and 29). -/
def Obligations.PowerOnResetValues : Prop :=
  ∀ s : State, exec .powerOnReset s = .next { State.reset with
    pending := s.pending
    choices := s.choices
    lines := tmap (fun _ x => { raw := x.raw, settled := .known x.raw, pending := none, since := 0 }) s.lines
    ev := { State.reset.ev with
      queue := allLines.map (fun l => { event := .interlockChanged l (tget s.lines l).raw .noEntry, count := 1 }) } }

/-- The reset state keeps every law of the part. -/
def Obligations.ResetStateIsLawful : Prop :=
  Lawful State.reset

/-- Through every step, ANY_FAULT is asserted just while some axis is FAULTED, and IN_MOTION just while some axis is TRACKING or
STOPPING (R39, R40); the queues stay within their room and in their order, and the lines, the cadence and the frame in the
engine lawful (R43 to R45, R84, R139, R141, R149, R156 to R158, R161, R174, R177, R178); an axis under tare is PARKED with a
load section while the mode is COMMISSION, the cue slots hold configured axes, and a TRACKING axis is a member of the active
group (R24, R98, R99, R132 to R136). -/
def Obligations.BlocksStayLawful : Prop :=
  ∀ s t : State, step s = .next t →
    (OutputsFollow s → OutputsFollow t) ∧
    (AnswersFit s → AnswersFit t) ∧ (EmittersLawful s → EmittersLawful t) ∧ (s.ev.Lawful → t.ev.Lawful) ∧
    (LinesLawful s → LinesLawful t) ∧ (CadenceLawful s → CadenceLawful t) ∧ (EngineLawful s → EngineLawful t) ∧
    (TareLawful s → TareLawful t) ∧ (GroupsLawful s → GroupsLawful t)

/-- Every step keeps every body of the tables and the settings record within its ranges, absent entries unlocked, and no pair
named twice (R2, R65, R67, R89, R169, R171). -/
def Obligations.TablesStayLawful : Prop :=
  ∀ s t : State, TablesLawful s → TareLawful s → step s = .next t → TablesLawful t

/-- Every step of a lawful state keeps the field rules of every axis context (R19, R28, R34, R114; that acked-once and the last
actual position go together for a FAULTED axis too is the model's reading, log entry 10). -/
def Obligations.ContextsStayLawful : Prop :=
  ∀ s t : State, Lawful s → step s = .next t → ContextsLawful t

/-- The law of the soft limits: through every step of a lawful state the screened position of every PARKED, HELD, TRACKING or
STOPPING axis lies within its soft limits, for HELD, TRACKING and STOPPING so does its projected stopping position, and no step
exceeds vmax (R4, R19, R55). -/
def Obligations.PositionsStayWithinLimits : Prop :=
  ∀ s t : State, Lawful s → step s = .next t → WithinLimits t ∧ StepsBounded t

/-- While the part is in SHOW, the content of every locked table entry stays unchanged: by every command but the reset input
(R168). -/
def Obligations.ShowKeepsLockedEntries : Prop :=
  ∀ (c : Instr) (s t : State), c ≠ .powerOnReset → TareLawful s → s.req.mode = .inShow → exec c s = .next t →
    (∀ x, (tget s.axisTab x).locked = true → tget t.axisTab x = tget s.axisTab x) ∧
    (∀ i, (tget s.pairTab i).locked = true →
      (tget t.pairTab i).body = (tget s.pairTab i).body ∧ (tget t.pairTab i).locked = true) ∧
    (∀ l, (tget s.lineTab l).locked = true → tget t.lineTab l = tget s.lineTab l)
end

