-- ==== Sys2Proof/Laws/State.lean ====
section
/-! SUPPORT. One lemma per field per update: what the primitive updates of the state leave as it was, by `rfl`. -/

namespace Sys2Proof.Machine

/-! ### an event raised: only the event unit changes -/

@[simp] theorem raise_pending (e : Event) (s : State) : (raise e s).pending = s.pending := rfl
@[simp] theorem raise_now (e : Event) (s : State) : (raise e s).now = s.now := rfl
@[simp] theorem raise_rxC (e : Event) (s : State) : (raise e s).rxC = s.rxC := rfl
@[simp] theorem raise_rxD (e : Event) (s : State) : (raise e s).rxD = s.rxD := rfl
@[simp] theorem raise_axisTab (e : Event) (s : State) : (raise e s).axisTab = s.axisTab := rfl
@[simp] theorem raise_pairTab (e : Event) (s : State) : (raise e s).pairTab = s.pairTab := rfl
@[simp] theorem raise_lineTab (e : Event) (s : State) : (raise e s).lineTab = s.lineTab := rfl
@[simp] theorem raise_settings (e : Event) (s : State) : (raise e s).settings = s.settings := rfl
@[simp] theorem raise_judged (e : Event) (s : State) : (raise e s).judged = s.judged := rfl
@[simp] theorem raise_choices (e : Event) (s : State) : (raise e s).choices = s.choices := rfl
@[simp] theorem raise_ctx (e : Event) (s : State) : (raise e s).ctx = s.ctx := rfl
@[simp] theorem raise_anyFault (e : Event) (s : State) : (raise e s).anyFault = s.anyFault := rfl
@[simp] theorem raise_inMotion (e : Event) (s : State) : (raise e s).inMotion = s.inMotion := rfl
@[simp] theorem raise_lines (e : Event) (s : State) : (raise e s).lines = s.lines := rfl
@[simp] theorem raise_active (e : Event) (s : State) : (raise e s).active = s.active := rfl
@[simp] theorem raise_staged (e : Event) (s : State) : (raise e s).staged = s.staged := rfl
@[simp] theorem raise_tare (e : Event) (s : State) : (raise e s).tare = s.tare := rfl
@[simp] theorem raise_req (e : Event) (s : State) : (raise e s).req = s.req := rfl
@[simp] theorem raise_cyc (e : Event) (s : State) : (raise e s).cyc = s.cyc := rfl
@[simp] theorem raise_engine (e : Event) (s : State) : (raise e s).engine = s.engine := rfl
@[simp] theorem raise_fb (e : Event) (s : State) : (raise e s).fb = s.fb := rfl
@[simp] theorem raise_down (e : Event) (s : State) : (raise e s).down = s.down := rfl
@[simp] theorem raise_up (e : Event) (s : State) : (raise e s).up = s.up := rfl

/-! ### the contexts replaced: only the contexts and the two outputs change -/

@[simp] theorem withContexts_pending (v : Vector AxisCtx 128) (s : State) : (withContexts v s).pending = s.pending := rfl
@[simp] theorem withContexts_now (v : Vector AxisCtx 128) (s : State) : (withContexts v s).now = s.now := rfl
@[simp] theorem withContexts_rxC (v : Vector AxisCtx 128) (s : State) : (withContexts v s).rxC = s.rxC := rfl
@[simp] theorem withContexts_rxD (v : Vector AxisCtx 128) (s : State) : (withContexts v s).rxD = s.rxD := rfl
@[simp] theorem withContexts_axisTab (v : Vector AxisCtx 128) (s : State) : (withContexts v s).axisTab = s.axisTab := rfl
@[simp] theorem withContexts_pairTab (v : Vector AxisCtx 128) (s : State) : (withContexts v s).pairTab = s.pairTab := rfl
@[simp] theorem withContexts_lineTab (v : Vector AxisCtx 128) (s : State) : (withContexts v s).lineTab = s.lineTab := rfl
@[simp] theorem withContexts_settings (v : Vector AxisCtx 128) (s : State) : (withContexts v s).settings = s.settings := rfl
@[simp] theorem withContexts_judged (v : Vector AxisCtx 128) (s : State) : (withContexts v s).judged = s.judged := rfl
@[simp] theorem withContexts_choices (v : Vector AxisCtx 128) (s : State) : (withContexts v s).choices = s.choices := rfl
@[simp] theorem withContexts_lines (v : Vector AxisCtx 128) (s : State) : (withContexts v s).lines = s.lines := rfl
@[simp] theorem withContexts_active (v : Vector AxisCtx 128) (s : State) : (withContexts v s).active = s.active := rfl
@[simp] theorem withContexts_staged (v : Vector AxisCtx 128) (s : State) : (withContexts v s).staged = s.staged := rfl
@[simp] theorem withContexts_tare (v : Vector AxisCtx 128) (s : State) : (withContexts v s).tare = s.tare := rfl
@[simp] theorem withContexts_req (v : Vector AxisCtx 128) (s : State) : (withContexts v s).req = s.req := rfl
@[simp] theorem withContexts_ev (v : Vector AxisCtx 128) (s : State) : (withContexts v s).ev = s.ev := rfl
@[simp] theorem withContexts_cyc (v : Vector AxisCtx 128) (s : State) : (withContexts v s).cyc = s.cyc := rfl
@[simp] theorem withContexts_engine (v : Vector AxisCtx 128) (s : State) : (withContexts v s).engine = s.engine := rfl
@[simp] theorem withContexts_fb (v : Vector AxisCtx 128) (s : State) : (withContexts v s).fb = s.fb := rfl
@[simp] theorem withContexts_down (v : Vector AxisCtx 128) (s : State) : (withContexts v s).down = s.down := rfl
@[simp] theorem withContexts_up (v : Vector AxisCtx 128) (s : State) : (withContexts v s).up = s.up := rfl

/-! ### one context replaced -/

@[simp] theorem setCtx_pending (a : Axis) (c : AxisCtx) (s : State) : (setCtx a c s).pending = s.pending := rfl
@[simp] theorem setCtx_now (a : Axis) (c : AxisCtx) (s : State) : (setCtx a c s).now = s.now := rfl
@[simp] theorem setCtx_rxC (a : Axis) (c : AxisCtx) (s : State) : (setCtx a c s).rxC = s.rxC := rfl
@[simp] theorem setCtx_rxD (a : Axis) (c : AxisCtx) (s : State) : (setCtx a c s).rxD = s.rxD := rfl
@[simp] theorem setCtx_axisTab (a : Axis) (c : AxisCtx) (s : State) : (setCtx a c s).axisTab = s.axisTab := rfl
@[simp] theorem setCtx_pairTab (a : Axis) (c : AxisCtx) (s : State) : (setCtx a c s).pairTab = s.pairTab := rfl
@[simp] theorem setCtx_lineTab (a : Axis) (c : AxisCtx) (s : State) : (setCtx a c s).lineTab = s.lineTab := rfl
@[simp] theorem setCtx_settings (a : Axis) (c : AxisCtx) (s : State) : (setCtx a c s).settings = s.settings := rfl
@[simp] theorem setCtx_judged (a : Axis) (c : AxisCtx) (s : State) : (setCtx a c s).judged = s.judged := rfl
@[simp] theorem setCtx_choices (a : Axis) (c : AxisCtx) (s : State) : (setCtx a c s).choices = s.choices := rfl
@[simp] theorem setCtx_lines (a : Axis) (c : AxisCtx) (s : State) : (setCtx a c s).lines = s.lines := rfl
@[simp] theorem setCtx_active (a : Axis) (c : AxisCtx) (s : State) : (setCtx a c s).active = s.active := rfl
@[simp] theorem setCtx_staged (a : Axis) (c : AxisCtx) (s : State) : (setCtx a c s).staged = s.staged := rfl
@[simp] theorem setCtx_tare (a : Axis) (c : AxisCtx) (s : State) : (setCtx a c s).tare = s.tare := rfl
@[simp] theorem setCtx_req (a : Axis) (c : AxisCtx) (s : State) : (setCtx a c s).req = s.req := rfl
@[simp] theorem setCtx_ev (a : Axis) (c : AxisCtx) (s : State) : (setCtx a c s).ev = s.ev := rfl
@[simp] theorem setCtx_cyc (a : Axis) (c : AxisCtx) (s : State) : (setCtx a c s).cyc = s.cyc := rfl
@[simp] theorem setCtx_engine (a : Axis) (c : AxisCtx) (s : State) : (setCtx a c s).engine = s.engine := rfl
@[simp] theorem setCtx_fb (a : Axis) (c : AxisCtx) (s : State) : (setCtx a c s).fb = s.fb := rfl
@[simp] theorem setCtx_down (a : Axis) (c : AxisCtx) (s : State) : (setCtx a c s).down = s.down := rfl
@[simp] theorem setCtx_up (a : Axis) (c : AxisCtx) (s : State) : (setCtx a c s).up = s.up := rfl

/-! ### every context replaced -/

@[simp] theorem mapCtx_pending (f : Axis → AxisCtx → AxisCtx) (s : State) : (mapCtx f s).pending = s.pending := rfl
@[simp] theorem mapCtx_now (f : Axis → AxisCtx → AxisCtx) (s : State) : (mapCtx f s).now = s.now := rfl
@[simp] theorem mapCtx_rxC (f : Axis → AxisCtx → AxisCtx) (s : State) : (mapCtx f s).rxC = s.rxC := rfl
@[simp] theorem mapCtx_rxD (f : Axis → AxisCtx → AxisCtx) (s : State) : (mapCtx f s).rxD = s.rxD := rfl
@[simp] theorem mapCtx_axisTab (f : Axis → AxisCtx → AxisCtx) (s : State) : (mapCtx f s).axisTab = s.axisTab := rfl
@[simp] theorem mapCtx_pairTab (f : Axis → AxisCtx → AxisCtx) (s : State) : (mapCtx f s).pairTab = s.pairTab := rfl
@[simp] theorem mapCtx_lineTab (f : Axis → AxisCtx → AxisCtx) (s : State) : (mapCtx f s).lineTab = s.lineTab := rfl
@[simp] theorem mapCtx_settings (f : Axis → AxisCtx → AxisCtx) (s : State) : (mapCtx f s).settings = s.settings := rfl
@[simp] theorem mapCtx_judged (f : Axis → AxisCtx → AxisCtx) (s : State) : (mapCtx f s).judged = s.judged := rfl
@[simp] theorem mapCtx_choices (f : Axis → AxisCtx → AxisCtx) (s : State) : (mapCtx f s).choices = s.choices := rfl
@[simp] theorem mapCtx_lines (f : Axis → AxisCtx → AxisCtx) (s : State) : (mapCtx f s).lines = s.lines := rfl
@[simp] theorem mapCtx_active (f : Axis → AxisCtx → AxisCtx) (s : State) : (mapCtx f s).active = s.active := rfl
@[simp] theorem mapCtx_staged (f : Axis → AxisCtx → AxisCtx) (s : State) : (mapCtx f s).staged = s.staged := rfl
@[simp] theorem mapCtx_tare (f : Axis → AxisCtx → AxisCtx) (s : State) : (mapCtx f s).tare = s.tare := rfl
@[simp] theorem mapCtx_req (f : Axis → AxisCtx → AxisCtx) (s : State) : (mapCtx f s).req = s.req := rfl
@[simp] theorem mapCtx_ev (f : Axis → AxisCtx → AxisCtx) (s : State) : (mapCtx f s).ev = s.ev := rfl
@[simp] theorem mapCtx_cyc (f : Axis → AxisCtx → AxisCtx) (s : State) : (mapCtx f s).cyc = s.cyc := rfl
@[simp] theorem mapCtx_engine (f : Axis → AxisCtx → AxisCtx) (s : State) : (mapCtx f s).engine = s.engine := rfl
@[simp] theorem mapCtx_fb (f : Axis → AxisCtx → AxisCtx) (s : State) : (mapCtx f s).fb = s.fb := rfl
@[simp] theorem mapCtx_down (f : Axis → AxisCtx → AxisCtx) (s : State) : (mapCtx f s).down = s.down := rfl
@[simp] theorem mapCtx_up (f : Axis → AxisCtx → AxisCtx) (s : State) : (mapCtx f s).up = s.up := rfl

/-! ### a judgement noted -/

@[simp] theorem noteJudged_pending (j : Judge) (a : Axis) (s : State) : (noteJudged j a s).pending = s.pending := rfl
@[simp] theorem noteJudged_now (j : Judge) (a : Axis) (s : State) : (noteJudged j a s).now = s.now := rfl
@[simp] theorem noteJudged_rxC (j : Judge) (a : Axis) (s : State) : (noteJudged j a s).rxC = s.rxC := rfl
@[simp] theorem noteJudged_rxD (j : Judge) (a : Axis) (s : State) : (noteJudged j a s).rxD = s.rxD := rfl
@[simp] theorem noteJudged_axisTab (j : Judge) (a : Axis) (s : State) : (noteJudged j a s).axisTab = s.axisTab := rfl
@[simp] theorem noteJudged_pairTab (j : Judge) (a : Axis) (s : State) : (noteJudged j a s).pairTab = s.pairTab := rfl
@[simp] theorem noteJudged_lineTab (j : Judge) (a : Axis) (s : State) : (noteJudged j a s).lineTab = s.lineTab := rfl
@[simp] theorem noteJudged_settings (j : Judge) (a : Axis) (s : State) : (noteJudged j a s).settings = s.settings := rfl
@[simp] theorem noteJudged_choices (j : Judge) (a : Axis) (s : State) : (noteJudged j a s).choices = s.choices := rfl
@[simp] theorem noteJudged_ctx (j : Judge) (a : Axis) (s : State) : (noteJudged j a s).ctx = s.ctx := rfl
@[simp] theorem noteJudged_anyFault (j : Judge) (a : Axis) (s : State) : (noteJudged j a s).anyFault = s.anyFault := rfl
@[simp] theorem noteJudged_inMotion (j : Judge) (a : Axis) (s : State) : (noteJudged j a s).inMotion = s.inMotion := rfl
@[simp] theorem noteJudged_lines (j : Judge) (a : Axis) (s : State) : (noteJudged j a s).lines = s.lines := rfl
@[simp] theorem noteJudged_active (j : Judge) (a : Axis) (s : State) : (noteJudged j a s).active = s.active := rfl
@[simp] theorem noteJudged_staged (j : Judge) (a : Axis) (s : State) : (noteJudged j a s).staged = s.staged := rfl
@[simp] theorem noteJudged_tare (j : Judge) (a : Axis) (s : State) : (noteJudged j a s).tare = s.tare := rfl
@[simp] theorem noteJudged_req (j : Judge) (a : Axis) (s : State) : (noteJudged j a s).req = s.req := rfl
@[simp] theorem noteJudged_ev (j : Judge) (a : Axis) (s : State) : (noteJudged j a s).ev = s.ev := rfl
@[simp] theorem noteJudged_cyc (j : Judge) (a : Axis) (s : State) : (noteJudged j a s).cyc = s.cyc := rfl
@[simp] theorem noteJudged_engine (j : Judge) (a : Axis) (s : State) : (noteJudged j a s).engine = s.engine := rfl
@[simp] theorem noteJudged_fb (j : Judge) (a : Axis) (s : State) : (noteJudged j a s).fb = s.fb := rfl
@[simp] theorem noteJudged_down (j : Judge) (a : Axis) (s : State) : (noteJudged j a s).down = s.down := rfl
@[simp] theorem noteJudged_up (j : Judge) (a : Axis) (s : State) : (noteJudged j a s).up = s.up := rfl

/-! ### a choice made -/

@[simp] theorem chosen_pending (s : State) : (chosen s).pending = s.pending := rfl
@[simp] theorem chosen_now (s : State) : (chosen s).now = s.now := rfl
@[simp] theorem chosen_rxC (s : State) : (chosen s).rxC = s.rxC := rfl
@[simp] theorem chosen_rxD (s : State) : (chosen s).rxD = s.rxD := rfl
@[simp] theorem chosen_axisTab (s : State) : (chosen s).axisTab = s.axisTab := rfl
@[simp] theorem chosen_pairTab (s : State) : (chosen s).pairTab = s.pairTab := rfl
@[simp] theorem chosen_lineTab (s : State) : (chosen s).lineTab = s.lineTab := rfl
@[simp] theorem chosen_settings (s : State) : (chosen s).settings = s.settings := rfl
@[simp] theorem chosen_ctx (s : State) : (chosen s).ctx = s.ctx := rfl
@[simp] theorem chosen_judged (s : State) : (chosen s).judged = none := rfl
@[simp] theorem chosen_anyFault (s : State) : (chosen s).anyFault = s.anyFault := rfl
@[simp] theorem chosen_inMotion (s : State) : (chosen s).inMotion = s.inMotion := rfl
@[simp] theorem chosen_lines (s : State) : (chosen s).lines = s.lines := rfl
@[simp] theorem chosen_active (s : State) : (chosen s).active = s.active := rfl
@[simp] theorem chosen_staged (s : State) : (chosen s).staged = s.staged := rfl
@[simp] theorem chosen_tare (s : State) : (chosen s).tare = s.tare := rfl
@[simp] theorem chosen_req (s : State) : (chosen s).req = s.req := rfl
@[simp] theorem chosen_ev (s : State) : (chosen s).ev = s.ev := rfl
@[simp] theorem chosen_cyc (s : State) : (chosen s).cyc = s.cyc := rfl
@[simp] theorem chosen_engine (s : State) : (chosen s).engine = s.engine := rfl
@[simp] theorem chosen_fb (s : State) : (chosen s).fb = s.fb := rfl
@[simp] theorem chosen_down (s : State) : (chosen s).down = s.down := rfl
@[simp] theorem chosen_up (s : State) : (chosen s).up = s.up := rfl

/-! ### the clock advanced -/

@[simp] theorem advanceTo_pending (m : Nat) (s : State) : (advanceTo m s).pending = s.pending := rfl
@[simp] theorem advanceTo_rxC (m : Nat) (s : State) : (advanceTo m s).rxC = s.rxC := rfl
@[simp] theorem advanceTo_rxD (m : Nat) (s : State) : (advanceTo m s).rxD = s.rxD := rfl
@[simp] theorem advanceTo_axisTab (m : Nat) (s : State) : (advanceTo m s).axisTab = s.axisTab := rfl
@[simp] theorem advanceTo_pairTab (m : Nat) (s : State) : (advanceTo m s).pairTab = s.pairTab := rfl
@[simp] theorem advanceTo_lineTab (m : Nat) (s : State) : (advanceTo m s).lineTab = s.lineTab := rfl
@[simp] theorem advanceTo_settings (m : Nat) (s : State) : (advanceTo m s).settings = s.settings := rfl
@[simp] theorem advanceTo_judged (m : Nat) (s : State) : (advanceTo m s).judged = s.judged := rfl
@[simp] theorem advanceTo_choices (m : Nat) (s : State) : (advanceTo m s).choices = s.choices := rfl
@[simp] theorem advanceTo_ctx (m : Nat) (s : State) : (advanceTo m s).ctx = s.ctx := rfl
@[simp] theorem advanceTo_anyFault (m : Nat) (s : State) : (advanceTo m s).anyFault = s.anyFault := rfl
@[simp] theorem advanceTo_inMotion (m : Nat) (s : State) : (advanceTo m s).inMotion = s.inMotion := rfl
@[simp] theorem advanceTo_lines (m : Nat) (s : State) : (advanceTo m s).lines = s.lines := rfl
@[simp] theorem advanceTo_active (m : Nat) (s : State) : (advanceTo m s).active = s.active := rfl
@[simp] theorem advanceTo_staged (m : Nat) (s : State) : (advanceTo m s).staged = s.staged := rfl
@[simp] theorem advanceTo_tare (m : Nat) (s : State) : (advanceTo m s).tare = s.tare := rfl
@[simp] theorem advanceTo_req (m : Nat) (s : State) : (advanceTo m s).req = s.req := rfl
@[simp] theorem advanceTo_ev (m : Nat) (s : State) : (advanceTo m s).ev = s.ev := rfl
@[simp] theorem advanceTo_cyc (m : Nat) (s : State) : (advanceTo m s).cyc = s.cyc := rfl
@[simp] theorem advanceTo_engine (m : Nat) (s : State) : (advanceTo m s).engine = s.engine := rfl
@[simp] theorem advanceTo_fb (m : Nat) (s : State) : (advanceTo m s).fb = s.fb := rfl
@[simp] theorem advanceTo_down (m : Nat) (s : State) : (advanceTo m s).down = s.down := rfl
@[simp] theorem advanceTo_up (m : Nat) (s : State) : (advanceTo m s).up = s.up := rfl

/-! ### an answer queued -/

@[simp] theorem answer_pending (e : Envelope) (r : Result) (b : AnswerBody) (s : State) : (answer e r b s).pending = s.pending := rfl
@[simp] theorem answer_now (e : Envelope) (r : Result) (b : AnswerBody) (s : State) : (answer e r b s).now = s.now := rfl
@[simp] theorem answer_rxC (e : Envelope) (r : Result) (b : AnswerBody) (s : State) : (answer e r b s).rxC = s.rxC := rfl
@[simp] theorem answer_rxD (e : Envelope) (r : Result) (b : AnswerBody) (s : State) : (answer e r b s).rxD = s.rxD := rfl
@[simp] theorem answer_axisTab (e : Envelope) (r : Result) (b : AnswerBody) (s : State) : (answer e r b s).axisTab = s.axisTab := rfl
@[simp] theorem answer_pairTab (e : Envelope) (r : Result) (b : AnswerBody) (s : State) : (answer e r b s).pairTab = s.pairTab := rfl
@[simp] theorem answer_lineTab (e : Envelope) (r : Result) (b : AnswerBody) (s : State) : (answer e r b s).lineTab = s.lineTab := rfl
@[simp] theorem answer_settings (e : Envelope) (r : Result) (b : AnswerBody) (s : State) : (answer e r b s).settings = s.settings := rfl
@[simp] theorem answer_judged (e : Envelope) (r : Result) (b : AnswerBody) (s : State) : (answer e r b s).judged = s.judged := rfl
@[simp] theorem answer_choices (e : Envelope) (r : Result) (b : AnswerBody) (s : State) : (answer e r b s).choices = s.choices := rfl
@[simp] theorem answer_ctx (e : Envelope) (r : Result) (b : AnswerBody) (s : State) : (answer e r b s).ctx = s.ctx := rfl
@[simp] theorem answer_anyFault (e : Envelope) (r : Result) (b : AnswerBody) (s : State) : (answer e r b s).anyFault = s.anyFault := rfl
@[simp] theorem answer_inMotion (e : Envelope) (r : Result) (b : AnswerBody) (s : State) : (answer e r b s).inMotion = s.inMotion := rfl
@[simp] theorem answer_lines (e : Envelope) (r : Result) (b : AnswerBody) (s : State) : (answer e r b s).lines = s.lines := rfl
@[simp] theorem answer_active (e : Envelope) (r : Result) (b : AnswerBody) (s : State) : (answer e r b s).active = s.active := rfl
@[simp] theorem answer_staged (e : Envelope) (r : Result) (b : AnswerBody) (s : State) : (answer e r b s).staged = s.staged := rfl
@[simp] theorem answer_tare (e : Envelope) (r : Result) (b : AnswerBody) (s : State) : (answer e r b s).tare = s.tare := rfl
@[simp] theorem answer_ev (e : Envelope) (r : Result) (b : AnswerBody) (s : State) : (answer e r b s).ev = s.ev := rfl
@[simp] theorem answer_cyc (e : Envelope) (r : Result) (b : AnswerBody) (s : State) : (answer e r b s).cyc = s.cyc := rfl
@[simp] theorem answer_engine (e : Envelope) (r : Result) (b : AnswerBody) (s : State) : (answer e r b s).engine = s.engine := rfl
@[simp] theorem answer_fb (e : Envelope) (r : Result) (b : AnswerBody) (s : State) : (answer e r b s).fb = s.fb := rfl
@[simp] theorem answer_down (e : Envelope) (r : Result) (b : AnswerBody) (s : State) : (answer e r b s).down = s.down := rfl
@[simp] theorem answer_up (e : Envelope) (r : Result) (b : AnswerBody) (s : State) : (answer e r b s).up = s.up := rfl

/-! ### an axis entry written -/

@[simp] theorem setAxisEntry_pending (x : Axis) (v : AxisEntry) (s : State) : (setAxisEntry x v s).pending = s.pending := rfl
@[simp] theorem setAxisEntry_now (x : Axis) (v : AxisEntry) (s : State) : (setAxisEntry x v s).now = s.now := rfl
@[simp] theorem setAxisEntry_rxC (x : Axis) (v : AxisEntry) (s : State) : (setAxisEntry x v s).rxC = s.rxC := rfl
@[simp] theorem setAxisEntry_rxD (x : Axis) (v : AxisEntry) (s : State) : (setAxisEntry x v s).rxD = s.rxD := rfl
@[simp] theorem setAxisEntry_pairTab (x : Axis) (v : AxisEntry) (s : State) : (setAxisEntry x v s).pairTab = s.pairTab := rfl
@[simp] theorem setAxisEntry_lineTab (x : Axis) (v : AxisEntry) (s : State) : (setAxisEntry x v s).lineTab = s.lineTab := rfl
@[simp] theorem setAxisEntry_settings (x : Axis) (v : AxisEntry) (s : State) : (setAxisEntry x v s).settings = s.settings := rfl
@[simp] theorem setAxisEntry_judged (x : Axis) (v : AxisEntry) (s : State) : (setAxisEntry x v s).judged = s.judged := rfl
@[simp] theorem setAxisEntry_choices (x : Axis) (v : AxisEntry) (s : State) : (setAxisEntry x v s).choices = s.choices := rfl
@[simp] theorem setAxisEntry_ctx (x : Axis) (v : AxisEntry) (s : State) : (setAxisEntry x v s).ctx = s.ctx := rfl
@[simp] theorem setAxisEntry_anyFault (x : Axis) (v : AxisEntry) (s : State) : (setAxisEntry x v s).anyFault = s.anyFault := rfl
@[simp] theorem setAxisEntry_inMotion (x : Axis) (v : AxisEntry) (s : State) : (setAxisEntry x v s).inMotion = s.inMotion := rfl
@[simp] theorem setAxisEntry_lines (x : Axis) (v : AxisEntry) (s : State) : (setAxisEntry x v s).lines = s.lines := rfl
@[simp] theorem setAxisEntry_active (x : Axis) (v : AxisEntry) (s : State) : (setAxisEntry x v s).active = s.active := rfl
@[simp] theorem setAxisEntry_staged (x : Axis) (v : AxisEntry) (s : State) : (setAxisEntry x v s).staged = s.staged := rfl
@[simp] theorem setAxisEntry_tare (x : Axis) (v : AxisEntry) (s : State) : (setAxisEntry x v s).tare = s.tare := rfl
@[simp] theorem setAxisEntry_req (x : Axis) (v : AxisEntry) (s : State) : (setAxisEntry x v s).req = s.req := rfl
@[simp] theorem setAxisEntry_ev (x : Axis) (v : AxisEntry) (s : State) : (setAxisEntry x v s).ev = s.ev := rfl
@[simp] theorem setAxisEntry_cyc (x : Axis) (v : AxisEntry) (s : State) : (setAxisEntry x v s).cyc = s.cyc := rfl
@[simp] theorem setAxisEntry_engine (x : Axis) (v : AxisEntry) (s : State) : (setAxisEntry x v s).engine = s.engine := rfl
@[simp] theorem setAxisEntry_fb (x : Axis) (v : AxisEntry) (s : State) : (setAxisEntry x v s).fb = s.fb := rfl
@[simp] theorem setAxisEntry_down (x : Axis) (v : AxisEntry) (s : State) : (setAxisEntry x v s).down = s.down := rfl
@[simp] theorem setAxisEntry_up (x : Axis) (v : AxisEntry) (s : State) : (setAxisEntry x v s).up = s.up := rfl

/-! ### a pair entry written -/

@[simp] theorem setPairEntry_pending (i : PairIndex) (v : PairEntry) (s : State) : (setPairEntry i v s).pending = s.pending := rfl
@[simp] theorem setPairEntry_now (i : PairIndex) (v : PairEntry) (s : State) : (setPairEntry i v s).now = s.now := rfl
@[simp] theorem setPairEntry_rxC (i : PairIndex) (v : PairEntry) (s : State) : (setPairEntry i v s).rxC = s.rxC := rfl
@[simp] theorem setPairEntry_rxD (i : PairIndex) (v : PairEntry) (s : State) : (setPairEntry i v s).rxD = s.rxD := rfl
@[simp] theorem setPairEntry_axisTab (i : PairIndex) (v : PairEntry) (s : State) : (setPairEntry i v s).axisTab = s.axisTab := rfl
@[simp] theorem setPairEntry_lineTab (i : PairIndex) (v : PairEntry) (s : State) : (setPairEntry i v s).lineTab = s.lineTab := rfl
@[simp] theorem setPairEntry_settings (i : PairIndex) (v : PairEntry) (s : State) : (setPairEntry i v s).settings = s.settings := rfl
@[simp] theorem setPairEntry_judged (i : PairIndex) (v : PairEntry) (s : State) : (setPairEntry i v s).judged = s.judged := rfl
@[simp] theorem setPairEntry_choices (i : PairIndex) (v : PairEntry) (s : State) : (setPairEntry i v s).choices = s.choices := rfl
@[simp] theorem setPairEntry_ctx (i : PairIndex) (v : PairEntry) (s : State) : (setPairEntry i v s).ctx = s.ctx := rfl
@[simp] theorem setPairEntry_anyFault (i : PairIndex) (v : PairEntry) (s : State) : (setPairEntry i v s).anyFault = s.anyFault := rfl
@[simp] theorem setPairEntry_inMotion (i : PairIndex) (v : PairEntry) (s : State) : (setPairEntry i v s).inMotion = s.inMotion := rfl
@[simp] theorem setPairEntry_lines (i : PairIndex) (v : PairEntry) (s : State) : (setPairEntry i v s).lines = s.lines := rfl
@[simp] theorem setPairEntry_active (i : PairIndex) (v : PairEntry) (s : State) : (setPairEntry i v s).active = s.active := rfl
@[simp] theorem setPairEntry_staged (i : PairIndex) (v : PairEntry) (s : State) : (setPairEntry i v s).staged = s.staged := rfl
@[simp] theorem setPairEntry_tare (i : PairIndex) (v : PairEntry) (s : State) : (setPairEntry i v s).tare = s.tare := rfl
@[simp] theorem setPairEntry_req (i : PairIndex) (v : PairEntry) (s : State) : (setPairEntry i v s).req = s.req := rfl
@[simp] theorem setPairEntry_ev (i : PairIndex) (v : PairEntry) (s : State) : (setPairEntry i v s).ev = s.ev := rfl
@[simp] theorem setPairEntry_cyc (i : PairIndex) (v : PairEntry) (s : State) : (setPairEntry i v s).cyc = s.cyc := rfl
@[simp] theorem setPairEntry_engine (i : PairIndex) (v : PairEntry) (s : State) : (setPairEntry i v s).engine = s.engine := rfl
@[simp] theorem setPairEntry_fb (i : PairIndex) (v : PairEntry) (s : State) : (setPairEntry i v s).fb = s.fb := rfl
@[simp] theorem setPairEntry_down (i : PairIndex) (v : PairEntry) (s : State) : (setPairEntry i v s).down = s.down := rfl
@[simp] theorem setPairEntry_up (i : PairIndex) (v : PairEntry) (s : State) : (setPairEntry i v s).up = s.up := rfl

/-! ### an interlock entry written -/

@[simp] theorem setLineEntry_pending (l : Line) (v : InterlockEntry) (s : State) : (setLineEntry l v s).pending = s.pending := rfl
@[simp] theorem setLineEntry_now (l : Line) (v : InterlockEntry) (s : State) : (setLineEntry l v s).now = s.now := rfl
@[simp] theorem setLineEntry_rxC (l : Line) (v : InterlockEntry) (s : State) : (setLineEntry l v s).rxC = s.rxC := rfl
@[simp] theorem setLineEntry_rxD (l : Line) (v : InterlockEntry) (s : State) : (setLineEntry l v s).rxD = s.rxD := rfl
@[simp] theorem setLineEntry_axisTab (l : Line) (v : InterlockEntry) (s : State) : (setLineEntry l v s).axisTab = s.axisTab := rfl
@[simp] theorem setLineEntry_pairTab (l : Line) (v : InterlockEntry) (s : State) : (setLineEntry l v s).pairTab = s.pairTab := rfl
@[simp] theorem setLineEntry_settings (l : Line) (v : InterlockEntry) (s : State) : (setLineEntry l v s).settings = s.settings := rfl
@[simp] theorem setLineEntry_judged (l : Line) (v : InterlockEntry) (s : State) : (setLineEntry l v s).judged = s.judged := rfl
@[simp] theorem setLineEntry_choices (l : Line) (v : InterlockEntry) (s : State) : (setLineEntry l v s).choices = s.choices := rfl
@[simp] theorem setLineEntry_ctx (l : Line) (v : InterlockEntry) (s : State) : (setLineEntry l v s).ctx = s.ctx := rfl
@[simp] theorem setLineEntry_anyFault (l : Line) (v : InterlockEntry) (s : State) : (setLineEntry l v s).anyFault = s.anyFault := rfl
@[simp] theorem setLineEntry_inMotion (l : Line) (v : InterlockEntry) (s : State) : (setLineEntry l v s).inMotion = s.inMotion := rfl
@[simp] theorem setLineEntry_lines (l : Line) (v : InterlockEntry) (s : State) : (setLineEntry l v s).lines = s.lines := rfl
@[simp] theorem setLineEntry_active (l : Line) (v : InterlockEntry) (s : State) : (setLineEntry l v s).active = s.active := rfl
@[simp] theorem setLineEntry_staged (l : Line) (v : InterlockEntry) (s : State) : (setLineEntry l v s).staged = s.staged := rfl
@[simp] theorem setLineEntry_tare (l : Line) (v : InterlockEntry) (s : State) : (setLineEntry l v s).tare = s.tare := rfl
@[simp] theorem setLineEntry_req (l : Line) (v : InterlockEntry) (s : State) : (setLineEntry l v s).req = s.req := rfl
@[simp] theorem setLineEntry_ev (l : Line) (v : InterlockEntry) (s : State) : (setLineEntry l v s).ev = s.ev := rfl
@[simp] theorem setLineEntry_cyc (l : Line) (v : InterlockEntry) (s : State) : (setLineEntry l v s).cyc = s.cyc := rfl
@[simp] theorem setLineEntry_engine (l : Line) (v : InterlockEntry) (s : State) : (setLineEntry l v s).engine = s.engine := rfl
@[simp] theorem setLineEntry_fb (l : Line) (v : InterlockEntry) (s : State) : (setLineEntry l v s).fb = s.fb := rfl
@[simp] theorem setLineEntry_down (l : Line) (v : InterlockEntry) (s : State) : (setLineEntry l v s).down = s.down := rfl
@[simp] theorem setLineEntry_up (l : Line) (v : InterlockEntry) (s : State) : (setLineEntry l v s).up = s.up := rfl

/-! ### sub-fields -/

@[simp] theorem answer_req_mode (e : Envelope) (r : Result) (b : AnswerBody) (s : State) : (answer e r b s).req.mode = s.req.mode := rfl
@[simp] theorem answer_req_frames (e : Envelope) (r : Result) (b : AnswerBody) (s : State) : (answer e r b s).req.frames = s.req.frames := rfl
@[simp] theorem answer_req_dropped (e : Envelope) (r : Result) (b : AnswerBody) (s : State) : (answer e r b s).req.dropped = s.req.dropped := rfl
@[simp] theorem answer_req_droppedSets (e : Envelope) (r : Result) (b : AnswerBody) (s : State) : (answer e r b s).req.droppedSets = s.req.droppedSets := rfl

@[simp] theorem answer_answers (e : Envelope) (r : Result) (b : AnswerBody) (s : State) :
    (answer e r b s).req.answers = s.req.answers ++ [⟨e.tag, e.kind, r, b⟩] := rfl

@[simp] theorem raise_ev (e : Event) (s : State) : (raise e s).ev = s.ev.raise e := rfl

@[simp] theorem withContexts_ctx (v : Vector AxisCtx 128) (s : State) : (withContexts v s).ctx = v := rfl

@[simp] theorem setCtx_ctx (a : Axis) (c : AxisCtx) (s : State) : (setCtx a c s).ctx = tset s.ctx a c := rfl

@[simp] theorem mapCtx_ctx (f : Axis → AxisCtx → AxisCtx) (s : State) : (mapCtx f s).ctx = tmap f s.ctx := rfl

@[simp] theorem advanceTo_now (m : Nat) (s : State) : (advanceTo m s).now = max s.now m := rfl

@[simp] theorem setAxisEntry_axisTab (x : Axis) (v : AxisEntry) (s : State) :
    (setAxisEntry x v s).axisTab = tset s.axisTab x v := rfl

@[simp] theorem setPairEntry_pairTab (i : PairIndex) (v : PairEntry) (s : State) :
    (setPairEntry i v s).pairTab = tset s.pairTab i v := rfl

@[simp] theorem setLineEntry_lineTab (l : Line) (v : InterlockEntry) (s : State) :
    (setLineEntry l v s).lineTab = tset s.lineTab l v := rfl

end Sys2Proof.Machine
end

