-- ==== Sys2Proof/Laws/Frames.lean ====
section
/-! SUPPORT. What the operations built from the primitive updates leave as it was: one lemma per operation, which names every
field of the state that the operation never changes (`simp` reads it as one rule per field). -/

namespace Sys2Proof.Machine

@[simp] theorem accept_same (e : Envelope) (s : State) :
    (accept e s).pending = s.pending ∧ (accept e s).now = s.now ∧ (accept e s).rxC = s.rxC ∧ (accept e s).rxD = s.rxD
    ∧ (accept e s).axisTab = s.axisTab ∧ (accept e s).pairTab = s.pairTab ∧ (accept e s).lineTab = s.lineTab ∧ (accept
    e s).settings = s.settings ∧ (accept e s).ctx = s.ctx ∧ (accept e s).judged = s.judged ∧ (accept e s).choices =
    s.choices ∧ (accept e s).anyFault = s.anyFault ∧ (accept e s).inMotion = s.inMotion ∧ (accept e s).lines = s.lines
    ∧ (accept e s).active = s.active ∧ (accept e s).staged = s.staged ∧ (accept e s).tare = s.tare ∧ (accept e s).ev =
    s.ev ∧ (accept e s).cyc = s.cyc ∧ (accept e s).engine = s.engine ∧ (accept e s).fb = s.fb ∧ (accept e s).down =
    s.down ∧ (accept e s).up = s.up := by
  unfold accept
  simp

@[simp] theorem refuse_same (e : Envelope) (r : Result) (s : State) :
    (refuse e r s).pending = s.pending ∧ (refuse e r s).now = s.now ∧ (refuse e r s).rxC = s.rxC ∧ (refuse e r s).rxD
    = s.rxD ∧ (refuse e r s).axisTab = s.axisTab ∧ (refuse e r s).pairTab = s.pairTab ∧ (refuse e r s).lineTab =
    s.lineTab ∧ (refuse e r s).settings = s.settings ∧ (refuse e r s).ctx = s.ctx ∧ (refuse e r s).judged = s.judged ∧
    (refuse e r s).choices = s.choices ∧ (refuse e r s).anyFault = s.anyFault ∧ (refuse e r s).inMotion = s.inMotion ∧
    (refuse e r s).lines = s.lines ∧ (refuse e r s).active = s.active ∧ (refuse e r s).staged = s.staged ∧ (refuse e r
    s).tare = s.tare ∧ (refuse e r s).ev = s.ev ∧ (refuse e r s).cyc = s.cyc ∧ (refuse e r s).engine = s.engine ∧
    (refuse e r s).fb = s.fb ∧ (refuse e r s).down = s.down ∧ (refuse e r s).up = s.up := by
  unfold refuse
  simp

@[simp] theorem refuseField_same (e : Envelope) (n : Nat) (s : State) :
    (refuseField e n s).pending = s.pending ∧ (refuseField e n s).now = s.now ∧ (refuseField e n s).rxC = s.rxC ∧
    (refuseField e n s).rxD = s.rxD ∧ (refuseField e n s).axisTab = s.axisTab ∧ (refuseField e n s).pairTab =
    s.pairTab ∧ (refuseField e n s).lineTab = s.lineTab ∧ (refuseField e n s).settings = s.settings ∧ (refuseField e n
    s).ctx = s.ctx ∧ (refuseField e n s).judged = s.judged ∧ (refuseField e n s).choices = s.choices ∧ (refuseField e
    n s).anyFault = s.anyFault ∧ (refuseField e n s).inMotion = s.inMotion ∧ (refuseField e n s).lines = s.lines ∧
    (refuseField e n s).active = s.active ∧ (refuseField e n s).staged = s.staged ∧ (refuseField e n s).tare = s.tare
    ∧ (refuseField e n s).ev = s.ev ∧ (refuseField e n s).cyc = s.cyc ∧ (refuseField e n s).engine = s.engine ∧
    (refuseField e n s).fb = s.fb ∧ (refuseField e n s).down = s.down ∧ (refuseField e n s).up = s.up := by
  unfold refuseField
  simp

@[simp] theorem refuseProtected_same (e : Envelope) (t : TableCode) (n : Nat) (s : State) :
    (refuseProtected e t n s).pending = s.pending ∧ (refuseProtected e t n s).now = s.now ∧ (refuseProtected e t n
    s).rxC = s.rxC ∧ (refuseProtected e t n s).rxD = s.rxD ∧ (refuseProtected e t n s).axisTab = s.axisTab ∧
    (refuseProtected e t n s).pairTab = s.pairTab ∧ (refuseProtected e t n s).lineTab = s.lineTab ∧ (refuseProtected e
    t n s).settings = s.settings ∧ (refuseProtected e t n s).ctx = s.ctx ∧ (refuseProtected e t n s).judged = s.judged
    ∧ (refuseProtected e t n s).choices = s.choices ∧ (refuseProtected e t n s).anyFault = s.anyFault ∧
    (refuseProtected e t n s).inMotion = s.inMotion ∧ (refuseProtected e t n s).lines = s.lines ∧ (refuseProtected e t
    n s).active = s.active ∧ (refuseProtected e t n s).staged = s.staged ∧ (refuseProtected e t n s).tare = s.tare ∧
    (refuseProtected e t n s).cyc = s.cyc ∧ (refuseProtected e t n s).engine = s.engine ∧ (refuseProtected e t n s).fb
    = s.fb ∧ (refuseProtected e t n s).down = s.down ∧ (refuseProtected e t n s).up = s.up := by
  unfold refuseProtected
  simp

@[simp] theorem unsettleLines_same (s : State) :
    (unsettleLines s).pending = s.pending ∧ (unsettleLines s).now = s.now ∧ (unsettleLines s).rxC = s.rxC ∧
    (unsettleLines s).rxD = s.rxD ∧ (unsettleLines s).axisTab = s.axisTab ∧ (unsettleLines s).pairTab = s.pairTab ∧
    (unsettleLines s).lineTab = s.lineTab ∧ (unsettleLines s).settings = s.settings ∧ (unsettleLines s).ctx = s.ctx ∧
    (unsettleLines s).judged = s.judged ∧ (unsettleLines s).choices = s.choices ∧ (unsettleLines s).anyFault =
    s.anyFault ∧ (unsettleLines s).inMotion = s.inMotion ∧ (unsettleLines s).active = s.active ∧ (unsettleLines
    s).staged = s.staged ∧ (unsettleLines s).tare = s.tare ∧ (unsettleLines s).req = s.req ∧ (unsettleLines s).ev =
    s.ev ∧ (unsettleLines s).cyc = s.cyc ∧ (unsettleLines s).engine = s.engine ∧ (unsettleLines s).fb = s.fb ∧
    (unsettleLines s).down = s.down ∧ (unsettleLines s).up = s.up := by
  unfold unsettleLines
  simp

@[simp] theorem rawChanged_same (l : Line) (v : Level) (s : State) :
    (rawChanged l v s).pending = s.pending ∧ (rawChanged l v s).now = s.now ∧ (rawChanged l v s).rxC = s.rxC ∧
    (rawChanged l v s).rxD = s.rxD ∧ (rawChanged l v s).axisTab = s.axisTab ∧ (rawChanged l v s).pairTab = s.pairTab ∧
    (rawChanged l v s).lineTab = s.lineTab ∧ (rawChanged l v s).settings = s.settings ∧ (rawChanged l v s).ctx = s.ctx
    ∧ (rawChanged l v s).judged = s.judged ∧ (rawChanged l v s).choices = s.choices ∧ (rawChanged l v s).anyFault =
    s.anyFault ∧ (rawChanged l v s).inMotion = s.inMotion ∧ (rawChanged l v s).active = s.active ∧ (rawChanged l v
    s).staged = s.staged ∧ (rawChanged l v s).tare = s.tare ∧ (rawChanged l v s).req = s.req ∧ (rawChanged l v s).ev =
    s.ev ∧ (rawChanged l v s).cyc = s.cyc ∧ (rawChanged l v s).engine = s.engine ∧ (rawChanged l v s).fb = s.fb ∧
    (rawChanged l v s).down = s.down ∧ (rawChanged l v s).up = s.up := by
  unfold rawChanged
  simp

@[simp] theorem startScreening_same (b : Bool) (rs : List ConsoleRecord) (s : State) :
    (startScreening b rs s).pending = s.pending ∧ (startScreening b rs s).now = s.now ∧ (startScreening b rs s).rxC =
    s.rxC ∧ (startScreening b rs s).rxD = s.rxD ∧ (startScreening b rs s).axisTab = s.axisTab ∧ (startScreening b rs
    s).pairTab = s.pairTab ∧ (startScreening b rs s).lineTab = s.lineTab ∧ (startScreening b rs s).settings =
    s.settings ∧ (startScreening b rs s).ctx = s.ctx ∧ (startScreening b rs s).judged = s.judged ∧ (startScreening b
    rs s).choices = s.choices ∧ (startScreening b rs s).anyFault = s.anyFault ∧ (startScreening b rs s).inMotion =
    s.inMotion ∧ (startScreening b rs s).lines = s.lines ∧ (startScreening b rs s).active = s.active ∧ (startScreening
    b rs s).staged = s.staged ∧ (startScreening b rs s).tare = s.tare ∧ (startScreening b rs s).req = s.req ∧
    (startScreening b rs s).ev = s.ev ∧ (startScreening b rs s).fb = s.fb ∧ (startScreening b rs s).down = s.down ∧
    (startScreening b rs s).up = s.up := by
  unfold startScreening
  simp

@[simp] theorem restartReportTimer_same (s : State) :
    (restartReportTimer s).pending = s.pending ∧ (restartReportTimer s).now = s.now ∧ (restartReportTimer s).rxC =
    s.rxC ∧ (restartReportTimer s).rxD = s.rxD ∧ (restartReportTimer s).axisTab = s.axisTab ∧ (restartReportTimer
    s).pairTab = s.pairTab ∧ (restartReportTimer s).lineTab = s.lineTab ∧ (restartReportTimer s).settings = s.settings
    ∧ (restartReportTimer s).ctx = s.ctx ∧ (restartReportTimer s).judged = s.judged ∧ (restartReportTimer s).choices =
    s.choices ∧ (restartReportTimer s).anyFault = s.anyFault ∧ (restartReportTimer s).inMotion = s.inMotion ∧
    (restartReportTimer s).lines = s.lines ∧ (restartReportTimer s).active = s.active ∧ (restartReportTimer s).staged
    = s.staged ∧ (restartReportTimer s).tare = s.tare ∧ (restartReportTimer s).req = s.req ∧ (restartReportTimer
    s).cyc = s.cyc ∧ (restartReportTimer s).engine = s.engine ∧ (restartReportTimer s).fb = s.fb ∧ (restartReportTimer
    s).down = s.down ∧ (restartReportTimer s).up = s.up := by
  unfold restartReportTimer
  simp

@[simp] theorem clearReported_same (r : ReportFrame) (s : State) :
    (clearReported r s).pending = s.pending ∧ (clearReported r s).now = s.now ∧ (clearReported r s).rxC = s.rxC ∧
    (clearReported r s).rxD = s.rxD ∧ (clearReported r s).axisTab = s.axisTab ∧ (clearReported r s).pairTab =
    s.pairTab ∧ (clearReported r s).lineTab = s.lineTab ∧ (clearReported r s).settings = s.settings ∧ (clearReported r
    s).ctx = s.ctx ∧ (clearReported r s).judged = s.judged ∧ (clearReported r s).choices = s.choices ∧ (clearReported
    r s).anyFault = s.anyFault ∧ (clearReported r s).inMotion = s.inMotion ∧ (clearReported r s).lines = s.lines ∧
    (clearReported r s).active = s.active ∧ (clearReported r s).staged = s.staged ∧ (clearReported r s).tare = s.tare
    ∧ (clearReported r s).cyc = s.cyc ∧ (clearReported r s).engine = s.engine ∧ (clearReported r s).fb = s.fb ∧
    (clearReported r s).down = s.down ∧ (clearReported r s).up = s.up := by
  unfold clearReported
  simp

@[simp] theorem raiseAll_same (es : List Event) (s : State) :
    (raiseAll es s).pending = s.pending ∧ (raiseAll es s).now = s.now ∧ (raiseAll es s).rxC = s.rxC ∧ (raiseAll es
    s).rxD = s.rxD ∧ (raiseAll es s).axisTab = s.axisTab ∧ (raiseAll es s).pairTab = s.pairTab ∧ (raiseAll es
    s).lineTab = s.lineTab ∧ (raiseAll es s).settings = s.settings ∧ (raiseAll es s).ctx = s.ctx ∧ (raiseAll es
    s).judged = s.judged ∧ (raiseAll es s).choices = s.choices ∧ (raiseAll es s).anyFault = s.anyFault ∧ (raiseAll es
    s).inMotion = s.inMotion ∧ (raiseAll es s).lines = s.lines ∧ (raiseAll es s).active = s.active ∧ (raiseAll es
    s).staged = s.staged ∧ (raiseAll es s).tare = s.tare ∧ (raiseAll es s).req = s.req ∧ (raiseAll es s).cyc = s.cyc ∧
    (raiseAll es s).engine = s.engine ∧ (raiseAll es s).fb = s.fb ∧ (raiseAll es s).down = s.down ∧ (raiseAll es s).up
    = s.up := by
  unfold raiseAll
  induction es generalizing s with
  | nil => simp
  | cons e es ih => simpa using ih (raise e s)

@[simp] theorem settleLine_same (l : Line) (s : State) :
    (settleLine l s).pending = s.pending ∧ (settleLine l s).now = s.now ∧ (settleLine l s).rxC = s.rxC ∧ (settleLine l
    s).rxD = s.rxD ∧ (settleLine l s).axisTab = s.axisTab ∧ (settleLine l s).pairTab = s.pairTab ∧ (settleLine l
    s).lineTab = s.lineTab ∧ (settleLine l s).settings = s.settings ∧ (settleLine l s).ctx = s.ctx ∧ (settleLine l
    s).judged = s.judged ∧ (settleLine l s).choices = s.choices ∧ (settleLine l s).anyFault = s.anyFault ∧ (settleLine
    l s).inMotion = s.inMotion ∧ (settleLine l s).active = s.active ∧ (settleLine l s).staged = s.staged ∧ (settleLine
    l s).tare = s.tare ∧ (settleLine l s).req = s.req ∧ (settleLine l s).cyc = s.cyc ∧ (settleLine l s).engine =
    s.engine ∧ (settleLine l s).fb = s.fb ∧ (settleLine l s).down = s.down ∧ (settleLine l s).up = s.up := by
  unfold settleLine
  try dsimp only
  repeat' split
  all_goals simp

@[simp] theorem settleIfDue_same (l : Line) (s : State) :
    (settleIfDue l s).pending = s.pending ∧ (settleIfDue l s).now = s.now ∧ (settleIfDue l s).rxC = s.rxC ∧
    (settleIfDue l s).rxD = s.rxD ∧ (settleIfDue l s).axisTab = s.axisTab ∧ (settleIfDue l s).pairTab = s.pairTab ∧
    (settleIfDue l s).lineTab = s.lineTab ∧ (settleIfDue l s).settings = s.settings ∧ (settleIfDue l s).ctx = s.ctx ∧
    (settleIfDue l s).judged = s.judged ∧ (settleIfDue l s).choices = s.choices ∧ (settleIfDue l s).anyFault =
    s.anyFault ∧ (settleIfDue l s).inMotion = s.inMotion ∧ (settleIfDue l s).active = s.active ∧ (settleIfDue l
    s).staged = s.staged ∧ (settleIfDue l s).tare = s.tare ∧ (settleIfDue l s).req = s.req ∧ (settleIfDue l s).cyc =
    s.cyc ∧ (settleIfDue l s).engine = s.engine ∧ (settleIfDue l s).fb = s.fb ∧ (settleIfDue l s).down = s.down ∧
    (settleIfDue l s).up = s.up := by
  unfold settleIfDue
  try dsimp only
  repeat' split
  all_goals simp

@[simp] theorem settleAllDue_same (s : State) :
    (settleAllDue s).pending = s.pending ∧ (settleAllDue s).now = s.now ∧ (settleAllDue s).rxC = s.rxC ∧ (settleAllDue
    s).rxD = s.rxD ∧ (settleAllDue s).axisTab = s.axisTab ∧ (settleAllDue s).pairTab = s.pairTab ∧ (settleAllDue
    s).lineTab = s.lineTab ∧ (settleAllDue s).settings = s.settings ∧ (settleAllDue s).ctx = s.ctx ∧ (settleAllDue
    s).judged = s.judged ∧ (settleAllDue s).choices = s.choices ∧ (settleAllDue s).anyFault = s.anyFault ∧
    (settleAllDue s).inMotion = s.inMotion ∧ (settleAllDue s).active = s.active ∧ (settleAllDue s).staged = s.staged ∧
    (settleAllDue s).tare = s.tare ∧ (settleAllDue s).req = s.req ∧ (settleAllDue s).cyc = s.cyc ∧ (settleAllDue
    s).engine = s.engine ∧ (settleAllDue s).fb = s.fb ∧ (settleAllDue s).down = s.down ∧ (settleAllDue s).up = s.up := by
  unfold settleAllDue
  induction allLines generalizing s with
  | nil => simp
  | cons l ls ih => simpa using ih (settleIfDue l s)

@[simp] theorem abortTare_same (r : TareAbort) (s : State) :
    (abortTare r s).pending = s.pending ∧ (abortTare r s).now = s.now ∧ (abortTare r s).rxC = s.rxC ∧ (abortTare r
    s).rxD = s.rxD ∧ (abortTare r s).axisTab = s.axisTab ∧ (abortTare r s).pairTab = s.pairTab ∧ (abortTare r
    s).lineTab = s.lineTab ∧ (abortTare r s).settings = s.settings ∧ (abortTare r s).ctx = s.ctx ∧ (abortTare r
    s).judged = s.judged ∧ (abortTare r s).choices = s.choices ∧ (abortTare r s).anyFault = s.anyFault ∧ (abortTare r
    s).inMotion = s.inMotion ∧ (abortTare r s).lines = s.lines ∧ (abortTare r s).active = s.active ∧ (abortTare r
    s).staged = s.staged ∧ (abortTare r s).req = s.req ∧ (abortTare r s).cyc = s.cyc ∧ (abortTare r s).engine =
    s.engine ∧ (abortTare r s).fb = s.fb ∧ (abortTare r s).down = s.down ∧ (abortTare r s).up = s.up := by
  unfold abortTare
  try dsimp only
  repeat' split
  all_goals simp

@[simp] theorem informTare_same (s : State) :
    (informTare s).pending = s.pending ∧ (informTare s).now = s.now ∧ (informTare s).rxC = s.rxC ∧ (informTare s).rxD
    = s.rxD ∧ (informTare s).axisTab = s.axisTab ∧ (informTare s).pairTab = s.pairTab ∧ (informTare s).lineTab =
    s.lineTab ∧ (informTare s).settings = s.settings ∧ (informTare s).ctx = s.ctx ∧ (informTare s).judged = s.judged ∧
    (informTare s).choices = s.choices ∧ (informTare s).anyFault = s.anyFault ∧ (informTare s).inMotion = s.inMotion ∧
    (informTare s).lines = s.lines ∧ (informTare s).active = s.active ∧ (informTare s).staged = s.staged ∧ (informTare
    s).req = s.req ∧ (informTare s).cyc = s.cyc ∧ (informTare s).engine = s.engine ∧ (informTare s).fb = s.fb ∧
    (informTare s).down = s.down ∧ (informTare s).up = s.up := by
  unfold informTare
  try dsimp only
  repeat' split
  all_goals simp

@[simp] theorem stopBetween_same (a : Axis) (c : StopCause) (s : State) :
    (stopBetween a c s).pending = s.pending ∧ (stopBetween a c s).now = s.now ∧ (stopBetween a c s).rxC = s.rxC ∧
    (stopBetween a c s).rxD = s.rxD ∧ (stopBetween a c s).axisTab = s.axisTab ∧ (stopBetween a c s).pairTab =
    s.pairTab ∧ (stopBetween a c s).lineTab = s.lineTab ∧ (stopBetween a c s).settings = s.settings ∧ (stopBetween a c
    s).judged = s.judged ∧ (stopBetween a c s).choices = s.choices ∧ (stopBetween a c s).lines = s.lines ∧
    (stopBetween a c s).active = s.active ∧ (stopBetween a c s).staged = s.staged ∧ (stopBetween a c s).tare = s.tare
    ∧ (stopBetween a c s).req = s.req ∧ (stopBetween a c s).cyc = s.cyc ∧ (stopBetween a c s).engine = s.engine ∧
    (stopBetween a c s).fb = s.fb ∧ (stopBetween a c s).down = s.down ∧ (stopBetween a c s).up = s.up := by
  unfold stopBetween
  try dsimp only
  repeat' split
  all_goals simp

@[simp] theorem takeFault_same (a : Axis) (f : AxisFault) (s : State) :
    (takeFault a f s).pending = s.pending ∧ (takeFault a f s).now = s.now ∧ (takeFault a f s).rxC = s.rxC ∧ (takeFault
    a f s).rxD = s.rxD ∧ (takeFault a f s).axisTab = s.axisTab ∧ (takeFault a f s).pairTab = s.pairTab ∧ (takeFault a
    f s).lineTab = s.lineTab ∧ (takeFault a f s).settings = s.settings ∧ (takeFault a f s).judged = s.judged ∧
    (takeFault a f s).choices = s.choices ∧ (takeFault a f s).lines = s.lines ∧ (takeFault a f s).active = s.active ∧
    (takeFault a f s).staged = s.staged ∧ (takeFault a f s).req = s.req ∧ (takeFault a f s).cyc = s.cyc ∧ (takeFault a
    f s).engine = s.engine ∧ (takeFault a f s).fb = s.fb ∧ (takeFault a f s).down = s.down ∧ (takeFault a f s).up =
    s.up := by
  unfold takeFault
  try dsimp only
  simp

@[simp] theorem takeFaults_same (a : Axis) (fs : List AxisFault) (s : State) :
    (takeFaults a fs s).pending = s.pending ∧ (takeFaults a fs s).now = s.now ∧ (takeFaults a fs s).rxC = s.rxC ∧
    (takeFaults a fs s).rxD = s.rxD ∧ (takeFaults a fs s).axisTab = s.axisTab ∧ (takeFaults a fs s).pairTab =
    s.pairTab ∧ (takeFaults a fs s).lineTab = s.lineTab ∧ (takeFaults a fs s).settings = s.settings ∧ (takeFaults a fs
    s).judged = s.judged ∧ (takeFaults a fs s).choices = s.choices ∧ (takeFaults a fs s).lines = s.lines ∧ (takeFaults
    a fs s).active = s.active ∧ (takeFaults a fs s).staged = s.staged ∧ (takeFaults a fs s).req = s.req ∧ (takeFaults
    a fs s).cyc = s.cyc ∧ (takeFaults a fs s).engine = s.engine ∧ (takeFaults a fs s).fb = s.fb ∧ (takeFaults a fs
    s).down = s.down ∧ (takeFaults a fs s).up = s.up := by
  unfold takeFaults
  induction fs generalizing s with
  | nil => simp
  | cons f fs ih => simpa using ih (takeFault a f s)

@[simp] theorem handSetpoint_same (f : DownFrame) (s : State) :
    (handSetpoint f s).pending = s.pending ∧ (handSetpoint f s).now = s.now ∧ (handSetpoint f s).rxC = s.rxC ∧
    (handSetpoint f s).rxD = s.rxD ∧ (handSetpoint f s).axisTab = s.axisTab ∧ (handSetpoint f s).pairTab = s.pairTab ∧
    (handSetpoint f s).lineTab = s.lineTab ∧ (handSetpoint f s).settings = s.settings ∧ (handSetpoint f s).ctx = s.ctx
    ∧ (handSetpoint f s).judged = s.judged ∧ (handSetpoint f s).choices = s.choices ∧ (handSetpoint f s).anyFault =
    s.anyFault ∧ (handSetpoint f s).inMotion = s.inMotion ∧ (handSetpoint f s).lines = s.lines ∧ (handSetpoint f
    s).active = s.active ∧ (handSetpoint f s).staged = s.staged ∧ (handSetpoint f s).tare = s.tare ∧ (handSetpoint f
    s).req = s.req ∧ (handSetpoint f s).ev = s.ev ∧ (handSetpoint f s).cyc = s.cyc ∧ (handSetpoint f s).engine =
    s.engine ∧ (handSetpoint f s).fb = s.fb ∧ (handSetpoint f s).up = s.up := by
  unfold handSetpoint
  try dsimp only
  repeat' split
  all_goals simp

@[simp] theorem handManage_same (f : ManageFrame) (s : State) :
    (handManage f s).pending = s.pending ∧ (handManage f s).now = s.now ∧ (handManage f s).rxC = s.rxC ∧ (handManage f
    s).rxD = s.rxD ∧ (handManage f s).axisTab = s.axisTab ∧ (handManage f s).pairTab = s.pairTab ∧ (handManage f
    s).lineTab = s.lineTab ∧ (handManage f s).settings = s.settings ∧ (handManage f s).ctx = s.ctx ∧ (handManage f
    s).judged = s.judged ∧ (handManage f s).choices = s.choices ∧ (handManage f s).anyFault = s.anyFault ∧ (handManage
    f s).inMotion = s.inMotion ∧ (handManage f s).lines = s.lines ∧ (handManage f s).active = s.active ∧ (handManage f
    s).staged = s.staged ∧ (handManage f s).tare = s.tare ∧ (handManage f s).req = s.req ∧ (handManage f s).cyc =
    s.cyc ∧ (handManage f s).engine = s.engine ∧ (handManage f s).fb = s.fb ∧ (handManage f s).up = s.up := by
  unfold handManage
  try dsimp only
  repeat' split
  all_goals simp

@[simp] theorem handForward_same (f : Forwarded) (s : State) :
    (handForward f s).pending = s.pending ∧ (handForward f s).now = s.now ∧ (handForward f s).rxC = s.rxC ∧
    (handForward f s).rxD = s.rxD ∧ (handForward f s).axisTab = s.axisTab ∧ (handForward f s).pairTab = s.pairTab ∧
    (handForward f s).lineTab = s.lineTab ∧ (handForward f s).settings = s.settings ∧ (handForward f s).ctx = s.ctx ∧
    (handForward f s).judged = s.judged ∧ (handForward f s).choices = s.choices ∧ (handForward f s).anyFault =
    s.anyFault ∧ (handForward f s).inMotion = s.inMotion ∧ (handForward f s).lines = s.lines ∧ (handForward f
    s).active = s.active ∧ (handForward f s).staged = s.staged ∧ (handForward f s).tare = s.tare ∧ (handForward f
    s).req = s.req ∧ (handForward f s).ev = s.ev ∧ (handForward f s).cyc = s.cyc ∧ (handForward f s).engine = s.engine
    ∧ (handForward f s).fb = s.fb ∧ (handForward f s).down = s.down := by
  unfold handForward
  try dsimp only
  repeat' split
  all_goals simp

@[simp] theorem handReport_same (f : ReportFrame) (s : State) :
    (handReport f s).pending = s.pending ∧ (handReport f s).now = s.now ∧ (handReport f s).rxC = s.rxC ∧ (handReport f
    s).rxD = s.rxD ∧ (handReport f s).axisTab = s.axisTab ∧ (handReport f s).pairTab = s.pairTab ∧ (handReport f
    s).lineTab = s.lineTab ∧ (handReport f s).settings = s.settings ∧ (handReport f s).ctx = s.ctx ∧ (handReport f
    s).judged = s.judged ∧ (handReport f s).choices = s.choices ∧ (handReport f s).anyFault = s.anyFault ∧ (handReport
    f s).inMotion = s.inMotion ∧ (handReport f s).lines = s.lines ∧ (handReport f s).active = s.active ∧ (handReport f
    s).staged = s.staged ∧ (handReport f s).tare = s.tare ∧ (handReport f s).req = s.req ∧ (handReport f s).ev = s.ev
    ∧ (handReport f s).cyc = s.cyc ∧ (handReport f s).engine = s.engine ∧ (handReport f s).fb = s.fb ∧ (handReport f
    s).down = s.down := by
  unfold handReport
  try dsimp only
  repeat' split
  all_goals simp

@[simp] theorem warnPairs_same (x : Axis) (b : AxisBody) (p q : Motion) (s : State) :
    (warnPairs x b p q s).pending = s.pending ∧ (warnPairs x b p q s).now = s.now ∧ (warnPairs x b p q s).rxC = s.rxC
    ∧ (warnPairs x b p q s).rxD = s.rxD ∧ (warnPairs x b p q s).axisTab = s.axisTab ∧ (warnPairs x b p q s).lineTab =
    s.lineTab ∧ (warnPairs x b p q s).settings = s.settings ∧ (warnPairs x b p q s).ctx = s.ctx ∧ (warnPairs x b p q
    s).judged = s.judged ∧ (warnPairs x b p q s).choices = s.choices ∧ (warnPairs x b p q s).anyFault = s.anyFault ∧
    (warnPairs x b p q s).inMotion = s.inMotion ∧ (warnPairs x b p q s).lines = s.lines ∧ (warnPairs x b p q s).active
    = s.active ∧ (warnPairs x b p q s).staged = s.staged ∧ (warnPairs x b p q s).tare = s.tare ∧ (warnPairs x b p q
    s).req = s.req ∧ (warnPairs x b p q s).cyc = s.cyc ∧ (warnPairs x b p q s).engine = s.engine ∧ (warnPairs x b p q
    s).fb = s.fb ∧ (warnPairs x b p q s).down = s.down ∧ (warnPairs x b p q s).up = s.up := by
  unfold warnPairs
  try dsimp only
  simp

@[simp] theorem stopInScreening_same (x : Axis) (b : AxisBody) (k : StopCause) (c : AxisCtx) (s : State) :
    (stopInScreening x b k c s).pending = s.pending ∧ (stopInScreening x b k c s).now = s.now ∧ (stopInScreening x b k
    c s).rxC = s.rxC ∧ (stopInScreening x b k c s).rxD = s.rxD ∧ (stopInScreening x b k c s).axisTab = s.axisTab ∧
    (stopInScreening x b k c s).pairTab = s.pairTab ∧ (stopInScreening x b k c s).lineTab = s.lineTab ∧
    (stopInScreening x b k c s).settings = s.settings ∧ (stopInScreening x b k c s).judged = s.judged ∧
    (stopInScreening x b k c s).choices = s.choices ∧ (stopInScreening x b k c s).lines = s.lines ∧ (stopInScreening x
    b k c s).active = s.active ∧ (stopInScreening x b k c s).staged = s.staged ∧ (stopInScreening x b k c s).tare =
    s.tare ∧ (stopInScreening x b k c s).req = s.req ∧ (stopInScreening x b k c s).cyc = s.cyc ∧ (stopInScreening x b
    k c s).engine = s.engine ∧ (stopInScreening x b k c s).fb = s.fb ∧ (stopInScreening x b k c s).down = s.down ∧
    (stopInScreening x b k c s).up = s.up := by
  unfold stopInScreening
  try dsimp only
  simp

@[simp] theorem passCandidate_same (x : Axis) (b : AxisBody) (p q : Motion) (r : Int) (c : AxisCtx) (s : State) :
    (passCandidate x b p q r c s).pending = s.pending ∧ (passCandidate x b p q r c s).now = s.now ∧ (passCandidate x b
    p q r c s).rxC = s.rxC ∧ (passCandidate x b p q r c s).rxD = s.rxD ∧ (passCandidate x b p q r c s).axisTab =
    s.axisTab ∧ (passCandidate x b p q r c s).lineTab = s.lineTab ∧ (passCandidate x b p q r c s).settings =
    s.settings ∧ (passCandidate x b p q r c s).judged = s.judged ∧ (passCandidate x b p q r c s).choices = s.choices ∧
    (passCandidate x b p q r c s).lines = s.lines ∧ (passCandidate x b p q r c s).active = s.active ∧ (passCandidate x
    b p q r c s).staged = s.staged ∧ (passCandidate x b p q r c s).tare = s.tare ∧ (passCandidate x b p q r c s).req =
    s.req ∧ (passCandidate x b p q r c s).cyc = s.cyc ∧ (passCandidate x b p q r c s).engine = s.engine ∧
    (passCandidate x b p q r c s).fb = s.fb ∧ (passCandidate x b p q r c s).down = s.down ∧ (passCandidate x b p q r c
    s).up = s.up := by
  unfold passCandidate
  try dsimp only
  repeat' split
  all_goals simp

@[simp] theorem screenTracking_same (x : Axis) (b : AxisBody) (p r : Int) (c : AxisCtx) (s : State) :
    (screenTracking x b p r c s).pending = s.pending ∧ (screenTracking x b p r c s).now = s.now ∧ (screenTracking x b
    p r c s).rxC = s.rxC ∧ (screenTracking x b p r c s).rxD = s.rxD ∧ (screenTracking x b p r c s).axisTab = s.axisTab
    ∧ (screenTracking x b p r c s).lineTab = s.lineTab ∧ (screenTracking x b p r c s).settings = s.settings ∧
    (screenTracking x b p r c s).judged = s.judged ∧ (screenTracking x b p r c s).choices = s.choices ∧
    (screenTracking x b p r c s).lines = s.lines ∧ (screenTracking x b p r c s).active = s.active ∧ (screenTracking x
    b p r c s).staged = s.staged ∧ (screenTracking x b p r c s).tare = s.tare ∧ (screenTracking x b p r c s).req =
    s.req ∧ (screenTracking x b p r c s).cyc = s.cyc ∧ (screenTracking x b p r c s).engine = s.engine ∧
    (screenTracking x b p r c s).fb = s.fb ∧ (screenTracking x b p r c s).down = s.down ∧ (screenTracking x b p r c
    s).up = s.up := by
  unfold screenTracking
  try dsimp only
  repeat' split
  all_goals simp

@[simp] theorem screenHeld_same (x : Axis) (b : AxisBody) (p r : Int) (c : AxisCtx) (s : State) :
    (screenHeld x b p r c s).pending = s.pending ∧ (screenHeld x b p r c s).now = s.now ∧ (screenHeld x b p r c s).rxC
    = s.rxC ∧ (screenHeld x b p r c s).rxD = s.rxD ∧ (screenHeld x b p r c s).axisTab = s.axisTab ∧ (screenHeld x b p
    r c s).lineTab = s.lineTab ∧ (screenHeld x b p r c s).settings = s.settings ∧ (screenHeld x b p r c s).judged =
    s.judged ∧ (screenHeld x b p r c s).choices = s.choices ∧ (screenHeld x b p r c s).lines = s.lines ∧ (screenHeld x
    b p r c s).active = s.active ∧ (screenHeld x b p r c s).staged = s.staged ∧ (screenHeld x b p r c s).tare = s.tare
    ∧ (screenHeld x b p r c s).req = s.req ∧ (screenHeld x b p r c s).cyc = s.cyc ∧ (screenHeld x b p r c s).engine =
    s.engine ∧ (screenHeld x b p r c s).fb = s.fb ∧ (screenHeld x b p r c s).down = s.down ∧ (screenHeld x b p r c
    s).up = s.up := by
  unfold screenHeld
  try dsimp only
  repeat' split
  all_goals simp

@[simp] theorem screenAxis_same (x : Axis) (r : Option Int) (y : Bool) (s : State) :
    (screenAxis x r y s).pending = s.pending ∧ (screenAxis x r y s).now = s.now ∧ (screenAxis x r y s).rxC = s.rxC ∧
    (screenAxis x r y s).rxD = s.rxD ∧ (screenAxis x r y s).axisTab = s.axisTab ∧ (screenAxis x r y s).lineTab =
    s.lineTab ∧ (screenAxis x r y s).settings = s.settings ∧ (screenAxis x r y s).judged = s.judged ∧ (screenAxis x r
    y s).choices = s.choices ∧ (screenAxis x r y s).lines = s.lines ∧ (screenAxis x r y s).active = s.active ∧
    (screenAxis x r y s).staged = s.staged ∧ (screenAxis x r y s).tare = s.tare ∧ (screenAxis x r y s).req = s.req ∧
    (screenAxis x r y s).cyc = s.cyc ∧ (screenAxis x r y s).engine = s.engine ∧ (screenAxis x r y s).fb = s.fb ∧
    (screenAxis x r y s).down = s.down ∧ (screenAxis x r y s).up = s.up := by
  unfold screenAxis
  try dsimp only
  repeat' split
  all_goals simp

@[simp] theorem screenAndFix_same (x : Axis) (r : Option Int) (e : Screening) (s : State) :
    (screenAndFix x r e s).pending = s.pending ∧ (screenAndFix x r e s).now = s.now ∧ (screenAndFix x r e s).rxC =
    s.rxC ∧ (screenAndFix x r e s).rxD = s.rxD ∧ (screenAndFix x r e s).axisTab = s.axisTab ∧ (screenAndFix x r e
    s).lineTab = s.lineTab ∧ (screenAndFix x r e s).settings = s.settings ∧ (screenAndFix x r e s).judged = s.judged ∧
    (screenAndFix x r e s).choices = s.choices ∧ (screenAndFix x r e s).lines = s.lines ∧ (screenAndFix x r e
    s).active = s.active ∧ (screenAndFix x r e s).staged = s.staged ∧ (screenAndFix x r e s).tare = s.tare ∧
    (screenAndFix x r e s).req = s.req ∧ (screenAndFix x r e s).cyc = s.cyc ∧ (screenAndFix x r e s).fb = s.fb ∧
    (screenAndFix x r e s).down = s.down ∧ (screenAndFix x r e s).up = s.up := by
  unfold screenAndFix
  try dsimp only
  simp

@[simp] theorem takeConsoleRecord_same (r : ConsoleRecord) (e : Screening) (s : State) :
    (takeConsoleRecord r e s).pending = s.pending ∧ (takeConsoleRecord r e s).now = s.now ∧ (takeConsoleRecord r e
    s).rxC = s.rxC ∧ (takeConsoleRecord r e s).rxD = s.rxD ∧ (takeConsoleRecord r e s).axisTab = s.axisTab ∧
    (takeConsoleRecord r e s).lineTab = s.lineTab ∧ (takeConsoleRecord r e s).settings = s.settings ∧
    (takeConsoleRecord r e s).judged = s.judged ∧ (takeConsoleRecord r e s).choices = s.choices ∧ (takeConsoleRecord r
    e s).lines = s.lines ∧ (takeConsoleRecord r e s).active = s.active ∧ (takeConsoleRecord r e s).staged = s.staged ∧
    (takeConsoleRecord r e s).tare = s.tare ∧ (takeConsoleRecord r e s).req = s.req ∧ (takeConsoleRecord r e s).cyc =
    s.cyc ∧ (takeConsoleRecord r e s).fb = s.fb ∧ (takeConsoleRecord r e s).down = s.down ∧ (takeConsoleRecord r e
    s).up = s.up := by
  unfold takeConsoleRecord
  try dsimp only
  repeat' split
  all_goals simp

@[simp] theorem overflow_same (q : Word16) (x : Axis) (c : AxisCtx) (s : State) :
    (overflow q x c s).1.pending = s.pending ∧ (overflow q x c s).1.now = s.now ∧ (overflow q x c s).1.rxC = s.rxC ∧
    (overflow q x c s).1.rxD = s.rxD ∧ (overflow q x c s).1.axisTab = s.axisTab ∧ (overflow q x c s).1.pairTab =
    s.pairTab ∧ (overflow q x c s).1.lineTab = s.lineTab ∧ (overflow q x c s).1.settings = s.settings ∧ (overflow q x
    c s).1.judged = s.judged ∧ (overflow q x c s).1.choices = s.choices ∧ (overflow q x c s).1.lines = s.lines ∧
    (overflow q x c s).1.active = s.active ∧ (overflow q x c s).1.staged = s.staged ∧ (overflow q x c s).1.req = s.req
    ∧ (overflow q x c s).1.cyc = s.cyc ∧ (overflow q x c s).1.engine = s.engine ∧ (overflow q x c s).1.fb = s.fb ∧
    (overflow q x c s).1.down = s.down ∧ (overflow q x c s).1.up = s.up := by
  unfold overflow
  simp

@[simp] theorem appendRecord_same (q : Word16) (r : DownRecord) (s : State) :
    (appendRecord q r s).1.pending = s.pending ∧ (appendRecord q r s).1.now = s.now ∧ (appendRecord q r s).1.rxC =
    s.rxC ∧ (appendRecord q r s).1.rxD = s.rxD ∧ (appendRecord q r s).1.axisTab = s.axisTab ∧ (appendRecord q r
    s).1.pairTab = s.pairTab ∧ (appendRecord q r s).1.lineTab = s.lineTab ∧ (appendRecord q r s).1.settings =
    s.settings ∧ (appendRecord q r s).1.choices = s.choices ∧ (appendRecord q r s).1.lines = s.lines ∧ (appendRecord q
    r s).1.active = s.active ∧ (appendRecord q r s).1.staged = s.staged ∧ (appendRecord q r s).1.req = s.req ∧
    (appendRecord q r s).1.cyc = s.cyc ∧ (appendRecord q r s).1.engine = s.engine ∧ (appendRecord q r s).1.fb = s.fb ∧
    (appendRecord q r s).1.down = s.down ∧ (appendRecord q r s).1.up = s.up := by
  unfold appendRecord
  try dsimp only
  repeat' split
  all_goals simp

@[simp] theorem judgeAppend_same (q : Word16) (r : DownRecord) (s : State) :
    (judgeAppend q r s).1.pending = s.pending ∧ (judgeAppend q r s).1.now = s.now ∧ (judgeAppend q r s).1.rxC = s.rxC
    ∧ (judgeAppend q r s).1.rxD = s.rxD ∧ (judgeAppend q r s).1.axisTab = s.axisTab ∧ (judgeAppend q r s).1.pairTab =
    s.pairTab ∧ (judgeAppend q r s).1.lineTab = s.lineTab ∧ (judgeAppend q r s).1.settings = s.settings ∧ (judgeAppend
    q r s).1.lines = s.lines ∧ (judgeAppend q r s).1.active = s.active ∧ (judgeAppend q r s).1.staged = s.staged ∧
    (judgeAppend q r s).1.req = s.req ∧ (judgeAppend q r s).1.cyc = s.cyc ∧ (judgeAppend q r s).1.engine = s.engine ∧
    (judgeAppend q r s).1.fb = s.fb ∧ (judgeAppend q r s).1.down = s.down ∧ (judgeAppend q r s).1.up = s.up := by
  unfold judgeAppend
  try dsimp only
  repeat' split
  all_goals simp

@[simp] theorem resumeConsole_same (q : Word16) (s : State) :
    (resumeConsole q s).pending = s.pending ∧ (resumeConsole q s).now = s.now ∧ (resumeConsole q s).rxC = s.rxC ∧
    (resumeConsole q s).rxD = s.rxD ∧ (resumeConsole q s).axisTab = s.axisTab ∧ (resumeConsole q s).pairTab =
    s.pairTab ∧ (resumeConsole q s).lineTab = s.lineTab ∧ (resumeConsole q s).settings = s.settings ∧ (resumeConsole q
    s).ctx = s.ctx ∧ (resumeConsole q s).judged = s.judged ∧ (resumeConsole q s).choices = s.choices ∧ (resumeConsole
    q s).anyFault = s.anyFault ∧ (resumeConsole q s).inMotion = s.inMotion ∧ (resumeConsole q s).lines = s.lines ∧
    (resumeConsole q s).active = s.active ∧ (resumeConsole q s).staged = s.staged ∧ (resumeConsole q s).tare = s.tare
    ∧ (resumeConsole q s).req = s.req ∧ (resumeConsole q s).engine = s.engine ∧ (resumeConsole q s).fb = s.fb ∧
    (resumeConsole q s).down = s.down ∧ (resumeConsole q s).up = s.up := by
  unfold resumeConsole
  try dsimp only
  repeat' split
  all_goals simp

@[simp] theorem acceptFrame_same (f : SetpointFrame) (g : Option Word16) (s : State) :
    (acceptFrame f g s).pending = s.pending ∧ (acceptFrame f g s).now = s.now ∧ (acceptFrame f g s).rxC = s.rxC ∧
    (acceptFrame f g s).rxD = s.rxD ∧ (acceptFrame f g s).axisTab = s.axisTab ∧ (acceptFrame f g s).pairTab =
    s.pairTab ∧ (acceptFrame f g s).lineTab = s.lineTab ∧ (acceptFrame f g s).settings = s.settings ∧ (acceptFrame f g
    s).ctx = s.ctx ∧ (acceptFrame f g s).judged = s.judged ∧ (acceptFrame f g s).choices = s.choices ∧ (acceptFrame f
    g s).anyFault = s.anyFault ∧ (acceptFrame f g s).inMotion = s.inMotion ∧ (acceptFrame f g s).lines = s.lines ∧
    (acceptFrame f g s).active = s.active ∧ (acceptFrame f g s).staged = s.staged ∧ (acceptFrame f g s).tare = s.tare
    ∧ (acceptFrame f g s).req = s.req ∧ (acceptFrame f g s).fb = s.fb ∧ (acceptFrame f g s).down = s.down ∧
    (acceptFrame f g s).up = s.up := by
  unfold acceptFrame
  try dsimp only
  repeat' split
  all_goals simp

@[simp] theorem judgeSequence_same (f : SetpointFrame) (s : State) :
    (judgeSequence f s).pending = s.pending ∧ (judgeSequence f s).now = s.now ∧ (judgeSequence f s).rxC = s.rxC ∧
    (judgeSequence f s).rxD = s.rxD ∧ (judgeSequence f s).axisTab = s.axisTab ∧ (judgeSequence f s).pairTab =
    s.pairTab ∧ (judgeSequence f s).lineTab = s.lineTab ∧ (judgeSequence f s).settings = s.settings ∧ (judgeSequence f
    s).ctx = s.ctx ∧ (judgeSequence f s).judged = s.judged ∧ (judgeSequence f s).choices = s.choices ∧ (judgeSequence
    f s).anyFault = s.anyFault ∧ (judgeSequence f s).inMotion = s.inMotion ∧ (judgeSequence f s).lines = s.lines ∧
    (judgeSequence f s).active = s.active ∧ (judgeSequence f s).staged = s.staged ∧ (judgeSequence f s).tare = s.tare
    ∧ (judgeSequence f s).req = s.req ∧ (judgeSequence f s).fb = s.fb ∧ (judgeSequence f s).down = s.down ∧
    (judgeSequence f s).up = s.up := by
  unfold judgeSequence
  try dsimp only
  repeat' split
  all_goals simp

@[simp] theorem judgeConsoleFrame_same (f : SetpointFrame) (s : State) :
    (judgeConsoleFrame f s).pending = s.pending ∧ (judgeConsoleFrame f s).now = s.now ∧ (judgeConsoleFrame f s).rxC =
    s.rxC ∧ (judgeConsoleFrame f s).rxD = s.rxD ∧ (judgeConsoleFrame f s).axisTab = s.axisTab ∧ (judgeConsoleFrame f
    s).pairTab = s.pairTab ∧ (judgeConsoleFrame f s).lineTab = s.lineTab ∧ (judgeConsoleFrame f s).settings =
    s.settings ∧ (judgeConsoleFrame f s).ctx = s.ctx ∧ (judgeConsoleFrame f s).judged = s.judged ∧ (judgeConsoleFrame
    f s).choices = s.choices ∧ (judgeConsoleFrame f s).anyFault = s.anyFault ∧ (judgeConsoleFrame f s).inMotion =
    s.inMotion ∧ (judgeConsoleFrame f s).lines = s.lines ∧ (judgeConsoleFrame f s).active = s.active ∧
    (judgeConsoleFrame f s).staged = s.staged ∧ (judgeConsoleFrame f s).tare = s.tare ∧ (judgeConsoleFrame f s).req =
    s.req ∧ (judgeConsoleFrame f s).fb = s.fb ∧ (judgeConsoleFrame f s).down = s.down ∧ (judgeConsoleFrame f s).up =
    s.up := by
  unfold judgeConsoleFrame
  try dsimp only
  repeat' split
  all_goals simp

@[simp] theorem synthesise_same (s : State) :
    (synthesise s).pending = s.pending ∧ (synthesise s).now = s.now ∧ (synthesise s).rxC = s.rxC ∧ (synthesise s).rxD
    = s.rxD ∧ (synthesise s).axisTab = s.axisTab ∧ (synthesise s).pairTab = s.pairTab ∧ (synthesise s).lineTab =
    s.lineTab ∧ (synthesise s).settings = s.settings ∧ (synthesise s).ctx = s.ctx ∧ (synthesise s).judged = s.judged ∧
    (synthesise s).choices = s.choices ∧ (synthesise s).anyFault = s.anyFault ∧ (synthesise s).inMotion = s.inMotion ∧
    (synthesise s).lines = s.lines ∧ (synthesise s).active = s.active ∧ (synthesise s).staged = s.staged ∧ (synthesise
    s).tare = s.tare ∧ (synthesise s).req = s.req ∧ (synthesise s).fb = s.fb ∧ (synthesise s).down = s.down ∧
    (synthesise s).up = s.up := by
  unfold synthesise
  try dsimp only
  repeat' split
  all_goals simp

@[simp] theorem emit_same (e : Screening) (s : State) :
    (emit e s).pending = s.pending ∧ (emit e s).now = s.now ∧ (emit e s).rxC = s.rxC ∧ (emit e s).rxD = s.rxD ∧ (emit
    e s).axisTab = s.axisTab ∧ (emit e s).pairTab = s.pairTab ∧ (emit e s).lineTab = s.lineTab ∧ (emit e s).settings =
    s.settings ∧ (emit e s).ctx = s.ctx ∧ (emit e s).judged = s.judged ∧ (emit e s).choices = s.choices ∧ (emit e
    s).anyFault = s.anyFault ∧ (emit e s).inMotion = s.inMotion ∧ (emit e s).lines = s.lines ∧ (emit e s).active =
    s.active ∧ (emit e s).staged = s.staged ∧ (emit e s).tare = s.tare ∧ (emit e s).req = s.req ∧ (emit e s).ev = s.ev
    ∧ (emit e s).fb = s.fb ∧ (emit e s).up = s.up := by
  unfold emit
  try dsimp only
  repeat' split
  all_goals simp

@[simp] theorem slackSnag_same (x : Axis) (l : LoadSection) (v : Int) (s : State) :
    (slackSnag x l v s).pending = s.pending ∧ (slackSnag x l v s).now = s.now ∧ (slackSnag x l v s).rxC = s.rxC ∧
    (slackSnag x l v s).rxD = s.rxD ∧ (slackSnag x l v s).axisTab = s.axisTab ∧ (slackSnag x l v s).pairTab =
    s.pairTab ∧ (slackSnag x l v s).lineTab = s.lineTab ∧ (slackSnag x l v s).settings = s.settings ∧ (slackSnag x l v
    s).judged = s.judged ∧ (slackSnag x l v s).choices = s.choices ∧ (slackSnag x l v s).lines = s.lines ∧ (slackSnag
    x l v s).active = s.active ∧ (slackSnag x l v s).staged = s.staged ∧ (slackSnag x l v s).tare = s.tare ∧
    (slackSnag x l v s).req = s.req ∧ (slackSnag x l v s).cyc = s.cyc ∧ (slackSnag x l v s).engine = s.engine ∧
    (slackSnag x l v s).fb = s.fb ∧ (slackSnag x l v s).down = s.down ∧ (slackSnag x l v s).up = s.up := by
  unfold slackSnag
  try dsimp only
  repeat' split
  all_goals simp

@[simp] theorem completeTare_same (x : Axis) (n : Int) (s : State) :
    (completeTare x n s).pending = s.pending ∧ (completeTare x n s).now = s.now ∧ (completeTare x n s).rxC = s.rxC ∧
    (completeTare x n s).rxD = s.rxD ∧ (completeTare x n s).pairTab = s.pairTab ∧ (completeTare x n s).lineTab =
    s.lineTab ∧ (completeTare x n s).settings = s.settings ∧ (completeTare x n s).judged = s.judged ∧ (completeTare x
    n s).choices = s.choices ∧ (completeTare x n s).lines = s.lines ∧ (completeTare x n s).active = s.active ∧
    (completeTare x n s).staged = s.staged ∧ (completeTare x n s).req = s.req ∧ (completeTare x n s).cyc = s.cyc ∧
    (completeTare x n s).engine = s.engine ∧ (completeTare x n s).fb = s.fb ∧ (completeTare x n s).down = s.down ∧
    (completeTare x n s).up = s.up := by
  unfold completeTare
  try dsimp only
  simp

@[simp] theorem tareSample_same (x : Axis) (n : Int) (s : State) :
    (tareSample x n s).pending = s.pending ∧ (tareSample x n s).now = s.now ∧ (tareSample x n s).rxC = s.rxC ∧
    (tareSample x n s).rxD = s.rxD ∧ (tareSample x n s).pairTab = s.pairTab ∧ (tareSample x n s).lineTab = s.lineTab ∧
    (tareSample x n s).settings = s.settings ∧ (tareSample x n s).judged = s.judged ∧ (tareSample x n s).choices =
    s.choices ∧ (tareSample x n s).lines = s.lines ∧ (tareSample x n s).active = s.active ∧ (tareSample x n s).staged
    = s.staged ∧ (tareSample x n s).req = s.req ∧ (tareSample x n s).cyc = s.cyc ∧ (tareSample x n s).engine =
    s.engine ∧ (tareSample x n s).fb = s.fb ∧ (tareSample x n s).down = s.down ∧ (tareSample x n s).up = s.up := by
  unfold tareSample
  try dsimp only
  repeat' split
  all_goals simp

@[simp] theorem learnPosition_same (x : Axis) (p : Int) (s : State) :
    (learnPosition x p s).pending = s.pending ∧ (learnPosition x p s).now = s.now ∧ (learnPosition x p s).rxC = s.rxC
    ∧ (learnPosition x p s).rxD = s.rxD ∧ (learnPosition x p s).axisTab = s.axisTab ∧ (learnPosition x p s).pairTab =
    s.pairTab ∧ (learnPosition x p s).lineTab = s.lineTab ∧ (learnPosition x p s).settings = s.settings ∧
    (learnPosition x p s).judged = s.judged ∧ (learnPosition x p s).choices = s.choices ∧ (learnPosition x p s).lines
    = s.lines ∧ (learnPosition x p s).active = s.active ∧ (learnPosition x p s).staged = s.staged ∧ (learnPosition x p
    s).tare = s.tare ∧ (learnPosition x p s).req = s.req ∧ (learnPosition x p s).cyc = s.cyc ∧ (learnPosition x p
    s).engine = s.engine ∧ (learnPosition x p s).fb = s.fb ∧ (learnPosition x p s).down = s.down ∧ (learnPosition x p
    s).up = s.up := by
  unfold learnPosition
  try dsimp only
  repeat' split
  all_goals simp

@[simp] theorem checkLoad_same (x : Axis) (l : LoadSection) (n : Int) (c : AxisCtx) (s : State) :
    (checkLoad x l n c s).pending = s.pending ∧ (checkLoad x l n c s).now = s.now ∧ (checkLoad x l n c s).rxC = s.rxC
    ∧ (checkLoad x l n c s).rxD = s.rxD ∧ (checkLoad x l n c s).pairTab = s.pairTab ∧ (checkLoad x l n c s).lineTab =
    s.lineTab ∧ (checkLoad x l n c s).settings = s.settings ∧ (checkLoad x l n c s).judged = s.judged ∧ (checkLoad x l
    n c s).choices = s.choices ∧ (checkLoad x l n c s).lines = s.lines ∧ (checkLoad x l n c s).active = s.active ∧
    (checkLoad x l n c s).staged = s.staged ∧ (checkLoad x l n c s).req = s.req ∧ (checkLoad x l n c s).cyc = s.cyc ∧
    (checkLoad x l n c s).engine = s.engine ∧ (checkLoad x l n c s).fb = s.fb ∧ (checkLoad x l n c s).down = s.down ∧
    (checkLoad x l n c s).up = s.up := by
  unfold checkLoad
  try dsimp only
  repeat' split
  all_goals simp

@[simp] theorem checkRecord_same (x : Axis) (r : FeedbackRecord) (m : OutEntry) (b : AxisBody) (c : AxisCtx) (s : State) :
    (checkRecord x r m b c s).pending = s.pending ∧ (checkRecord x r m b c s).now = s.now ∧ (checkRecord x r m b c
    s).rxC = s.rxC ∧ (checkRecord x r m b c s).rxD = s.rxD ∧ (checkRecord x r m b c s).pairTab = s.pairTab ∧
    (checkRecord x r m b c s).lineTab = s.lineTab ∧ (checkRecord x r m b c s).settings = s.settings ∧ (checkRecord x r
    m b c s).judged = s.judged ∧ (checkRecord x r m b c s).choices = s.choices ∧ (checkRecord x r m b c s).lines =
    s.lines ∧ (checkRecord x r m b c s).active = s.active ∧ (checkRecord x r m b c s).staged = s.staged ∧ (checkRecord
    x r m b c s).req = s.req ∧ (checkRecord x r m b c s).cyc = s.cyc ∧ (checkRecord x r m b c s).engine = s.engine ∧
    (checkRecord x r m b c s).fb = s.fb ∧ (checkRecord x r m b c s).down = s.down ∧ (checkRecord x r m b c s).up =
    s.up := by
  unfold checkRecord
  try dsimp only
  repeat' split
  all_goals simp

@[simp] theorem countSettle_same (x : Axis) (s : State) :
    (countSettle x s).pending = s.pending ∧ (countSettle x s).now = s.now ∧ (countSettle x s).rxC = s.rxC ∧
    (countSettle x s).rxD = s.rxD ∧ (countSettle x s).axisTab = s.axisTab ∧ (countSettle x s).pairTab = s.pairTab ∧
    (countSettle x s).lineTab = s.lineTab ∧ (countSettle x s).settings = s.settings ∧ (countSettle x s).judged =
    s.judged ∧ (countSettle x s).choices = s.choices ∧ (countSettle x s).lines = s.lines ∧ (countSettle x s).active =
    s.active ∧ (countSettle x s).staged = s.staged ∧ (countSettle x s).tare = s.tare ∧ (countSettle x s).req = s.req ∧
    (countSettle x s).ev = s.ev ∧ (countSettle x s).cyc = s.cyc ∧ (countSettle x s).engine = s.engine ∧ (countSettle x
    s).fb = s.fb ∧ (countSettle x s).down = s.down ∧ (countSettle x s).up = s.up := by
  unfold countSettle
  try dsimp only
  simp

@[simp] theorem matchRecord_same (x : Axis) (r : FeedbackRecord) (s : State) :
    (matchRecord x r s).pending = s.pending ∧ (matchRecord x r s).now = s.now ∧ (matchRecord x r s).rxC = s.rxC ∧
    (matchRecord x r s).rxD = s.rxD ∧ (matchRecord x r s).pairTab = s.pairTab ∧ (matchRecord x r s).lineTab =
    s.lineTab ∧ (matchRecord x r s).settings = s.settings ∧ (matchRecord x r s).choices = s.choices ∧ (matchRecord x r
    s).lines = s.lines ∧ (matchRecord x r s).active = s.active ∧ (matchRecord x r s).staged = s.staged ∧ (matchRecord
    x r s).req = s.req ∧ (matchRecord x r s).cyc = s.cyc ∧ (matchRecord x r s).engine = s.engine ∧ (matchRecord x r
    s).fb = s.fb ∧ (matchRecord x r s).down = s.down ∧ (matchRecord x r s).up = s.up := by
  unfold matchRecord
  try dsimp only
  repeat' split
  all_goals simp

theorem faultsFoundIn_same (c : AxisCtx) (x : Axis) (r : FeedbackRecord) (s t : State) (h : faultsFoundIn c x r s = some t) :
    t.pending = s.pending ∧ t.now = s.now ∧ t.rxC = s.rxC ∧ t.rxD = s.rxD ∧ t.pairTab = s.pairTab ∧ t.lineTab =
    s.lineTab ∧ t.settings = s.settings ∧ t.choices = s.choices ∧ t.lines = s.lines ∧ t.active = s.active ∧ t.staged =
    s.staged ∧ t.req = s.req ∧ t.cyc = s.cyc ∧ t.engine = s.engine ∧ t.fb = s.fb ∧ t.down = s.down ∧ t.up = s.up := by
  unfold faultsFoundIn at h
  split at h
  · split at h
    · cases h
      simp
    · cases h
  · cases h

@[simp] theorem judgeRecord_same (x : Axis) (r : FeedbackRecord) (s : State) :
    (judgeRecord x r s).pending = s.pending ∧ (judgeRecord x r s).now = s.now ∧ (judgeRecord x r s).rxC = s.rxC ∧
    (judgeRecord x r s).rxD = s.rxD ∧ (judgeRecord x r s).pairTab = s.pairTab ∧ (judgeRecord x r s).lineTab =
    s.lineTab ∧ (judgeRecord x r s).settings = s.settings ∧ (judgeRecord x r s).lines = s.lines ∧ (judgeRecord x r
    s).active = s.active ∧ (judgeRecord x r s).staged = s.staged ∧ (judgeRecord x r s).req = s.req ∧ (judgeRecord x r
    s).cyc = s.cyc ∧ (judgeRecord x r s).engine = s.engine ∧ (judgeRecord x r s).fb = s.fb ∧ (judgeRecord x r s).down
    = s.down ∧ (judgeRecord x r s).up = s.up := by
  unfold judgeRecord
  dsimp only
  split
  · simp
  · split
    · rename_i c _ _
      cases h : faultsFoundIn c x r (chosen s) with
      | none => simp
      | some t => simp [faultsFoundIn_same c x r (chosen s) t h]
    · simp

@[simp] theorem takeFeedbackRecord_same (r : FeedbackRecord) (s : State) :
    (takeFeedbackRecord r s).pending = s.pending ∧ (takeFeedbackRecord r s).now = s.now ∧ (takeFeedbackRecord r s).rxC
    = s.rxC ∧ (takeFeedbackRecord r s).rxD = s.rxD ∧ (takeFeedbackRecord r s).pairTab = s.pairTab ∧
    (takeFeedbackRecord r s).lineTab = s.lineTab ∧ (takeFeedbackRecord r s).settings = s.settings ∧
    (takeFeedbackRecord r s).lines = s.lines ∧ (takeFeedbackRecord r s).active = s.active ∧ (takeFeedbackRecord r
    s).staged = s.staged ∧ (takeFeedbackRecord r s).req = s.req ∧ (takeFeedbackRecord r s).cyc = s.cyc ∧
    (takeFeedbackRecord r s).engine = s.engine ∧ (takeFeedbackRecord r s).down = s.down ∧ (takeFeedbackRecord r s).up
    = s.up := by
  unfold takeFeedbackRecord
  try dsimp only
  repeat' split
  all_goals simp

@[simp] theorem takeFeedbackFrame_same (f : FeedbackFrame) (s : State) :
    (takeFeedbackFrame f s).pending = s.pending ∧ (takeFeedbackFrame f s).now = s.now ∧ (takeFeedbackFrame f s).rxC =
    s.rxC ∧ (takeFeedbackFrame f s).rxD = s.rxD ∧ (takeFeedbackFrame f s).axisTab = s.axisTab ∧ (takeFeedbackFrame f
    s).pairTab = s.pairTab ∧ (takeFeedbackFrame f s).lineTab = s.lineTab ∧ (takeFeedbackFrame f s).settings =
    s.settings ∧ (takeFeedbackFrame f s).ctx = s.ctx ∧ (takeFeedbackFrame f s).judged = s.judged ∧ (takeFeedbackFrame
    f s).choices = s.choices ∧ (takeFeedbackFrame f s).anyFault = s.anyFault ∧ (takeFeedbackFrame f s).inMotion =
    s.inMotion ∧ (takeFeedbackFrame f s).lines = s.lines ∧ (takeFeedbackFrame f s).active = s.active ∧
    (takeFeedbackFrame f s).staged = s.staged ∧ (takeFeedbackFrame f s).tare = s.tare ∧ (takeFeedbackFrame f s).req =
    s.req ∧ (takeFeedbackFrame f s).ev = s.ev ∧ (takeFeedbackFrame f s).cyc = s.cyc ∧ (takeFeedbackFrame f s).engine =
    s.engine ∧ (takeFeedbackFrame f s).down = s.down ∧ (takeFeedbackFrame f s).up = s.up := by
  unfold takeFeedbackFrame
  try dsimp only
  repeat' split
  all_goals simp

@[simp] theorem buildReport_same (s : State) :
    (buildReport s).pending = s.pending ∧ (buildReport s).now = s.now ∧ (buildReport s).rxC = s.rxC ∧ (buildReport
    s).rxD = s.rxD ∧ (buildReport s).axisTab = s.axisTab ∧ (buildReport s).pairTab = s.pairTab ∧ (buildReport
    s).lineTab = s.lineTab ∧ (buildReport s).settings = s.settings ∧ (buildReport s).ctx = s.ctx ∧ (buildReport
    s).judged = s.judged ∧ (buildReport s).choices = s.choices ∧ (buildReport s).anyFault = s.anyFault ∧ (buildReport
    s).inMotion = s.inMotion ∧ (buildReport s).lines = s.lines ∧ (buildReport s).active = s.active ∧ (buildReport
    s).staged = s.staged ∧ (buildReport s).tare = s.tare ∧ (buildReport s).cyc = s.cyc ∧ (buildReport s).engine =
    s.engine ∧ (buildReport s).fb = s.fb ∧ (buildReport s).down = s.down := by
  unfold buildReport
  try dsimp only
  simp

@[simp] theorem takeManageFrame_same (f : ManageFrame) (s : State) :
    (takeManageFrame f s).pending = s.pending ∧ (takeManageFrame f s).now = s.now ∧ (takeManageFrame f s).rxC = s.rxC
    ∧ (takeManageFrame f s).rxD = s.rxD ∧ (takeManageFrame f s).axisTab = s.axisTab ∧ (takeManageFrame f s).pairTab =
    s.pairTab ∧ (takeManageFrame f s).lineTab = s.lineTab ∧ (takeManageFrame f s).settings = s.settings ∧
    (takeManageFrame f s).ctx = s.ctx ∧ (takeManageFrame f s).judged = s.judged ∧ (takeManageFrame f s).choices =
    s.choices ∧ (takeManageFrame f s).anyFault = s.anyFault ∧ (takeManageFrame f s).inMotion = s.inMotion ∧
    (takeManageFrame f s).lines = s.lines ∧ (takeManageFrame f s).active = s.active ∧ (takeManageFrame f s).staged =
    s.staged ∧ (takeManageFrame f s).tare = s.tare ∧ (takeManageFrame f s).ev = s.ev ∧ (takeManageFrame f s).cyc =
    s.cyc ∧ (takeManageFrame f s).engine = s.engine ∧ (takeManageFrame f s).fb = s.fb ∧ (takeManageFrame f s).down =
    s.down ∧ (takeManageFrame f s).up = s.up := by
  unfold takeManageFrame
  try dsimp only
  repeat' split
  all_goals simp

@[simp] theorem takeForeignFrame_same (f : ManageFrame) (s : State) :
    (takeForeignFrame f s).pending = s.pending ∧ (takeForeignFrame f s).now = s.now ∧ (takeForeignFrame f s).rxC =
    s.rxC ∧ (takeForeignFrame f s).rxD = s.rxD ∧ (takeForeignFrame f s).axisTab = s.axisTab ∧ (takeForeignFrame f
    s).pairTab = s.pairTab ∧ (takeForeignFrame f s).lineTab = s.lineTab ∧ (takeForeignFrame f s).settings = s.settings
    ∧ (takeForeignFrame f s).ctx = s.ctx ∧ (takeForeignFrame f s).judged = s.judged ∧ (takeForeignFrame f s).choices =
    s.choices ∧ (takeForeignFrame f s).anyFault = s.anyFault ∧ (takeForeignFrame f s).inMotion = s.inMotion ∧
    (takeForeignFrame f s).lines = s.lines ∧ (takeForeignFrame f s).active = s.active ∧ (takeForeignFrame f s).staged
    = s.staged ∧ (takeForeignFrame f s).tare = s.tare ∧ (takeForeignFrame f s).req = s.req ∧ (takeForeignFrame f
    s).cyc = s.cyc ∧ (takeForeignFrame f s).engine = s.engine ∧ (takeForeignFrame f s).fb = s.fb ∧ (takeForeignFrame f
    s).up = s.up := by
  unfold takeForeignFrame
  try dsimp only
  repeat' split
  all_goals simp

@[simp] theorem routeConsole_same (f : Frame) (s : State) :
    (routeConsole f s).pending = s.pending ∧ (routeConsole f s).now = s.now ∧ (routeConsole f s).rxC = s.rxC ∧
    (routeConsole f s).rxD = s.rxD ∧ (routeConsole f s).axisTab = s.axisTab ∧ (routeConsole f s).pairTab = s.pairTab ∧
    (routeConsole f s).lineTab = s.lineTab ∧ (routeConsole f s).settings = s.settings ∧ (routeConsole f s).ctx = s.ctx
    ∧ (routeConsole f s).judged = s.judged ∧ (routeConsole f s).choices = s.choices ∧ (routeConsole f s).anyFault =
    s.anyFault ∧ (routeConsole f s).inMotion = s.inMotion ∧ (routeConsole f s).lines = s.lines ∧ (routeConsole f
    s).active = s.active ∧ (routeConsole f s).staged = s.staged ∧ (routeConsole f s).tare = s.tare ∧ (routeConsole f
    s).fb = s.fb ∧ (routeConsole f s).up = s.up := by
  unfold routeConsole
  try dsimp only
  repeat' split
  all_goals simp

@[simp] theorem routeDrive_same (f : Frame) (s : State) :
    (routeDrive f s).pending = s.pending ∧ (routeDrive f s).now = s.now ∧ (routeDrive f s).rxC = s.rxC ∧ (routeDrive f
    s).rxD = s.rxD ∧ (routeDrive f s).axisTab = s.axisTab ∧ (routeDrive f s).pairTab = s.pairTab ∧ (routeDrive f
    s).lineTab = s.lineTab ∧ (routeDrive f s).settings = s.settings ∧ (routeDrive f s).ctx = s.ctx ∧ (routeDrive f
    s).judged = s.judged ∧ (routeDrive f s).choices = s.choices ∧ (routeDrive f s).anyFault = s.anyFault ∧ (routeDrive
    f s).inMotion = s.inMotion ∧ (routeDrive f s).lines = s.lines ∧ (routeDrive f s).active = s.active ∧ (routeDrive f
    s).staged = s.staged ∧ (routeDrive f s).tare = s.tare ∧ (routeDrive f s).req = s.req ∧ (routeDrive f s).ev = s.ev
    ∧ (routeDrive f s).cyc = s.cyc ∧ (routeDrive f s).engine = s.engine ∧ (routeDrive f s).down = s.down := by
  unfold routeDrive
  try dsimp only
  repeat' split
  all_goals simp

@[simp] theorem route_same (p : Port) (f : Frame) (s : State) :
    (route p f s).pending = s.pending ∧ (route p f s).now = s.now ∧ (route p f s).rxC = s.rxC ∧ (route p f s).rxD =
    s.rxD ∧ (route p f s).axisTab = s.axisTab ∧ (route p f s).pairTab = s.pairTab ∧ (route p f s).lineTab = s.lineTab
    ∧ (route p f s).settings = s.settings ∧ (route p f s).ctx = s.ctx ∧ (route p f s).judged = s.judged ∧ (route p f
    s).choices = s.choices ∧ (route p f s).anyFault = s.anyFault ∧ (route p f s).inMotion = s.inMotion ∧ (route p f
    s).lines = s.lines ∧ (route p f s).active = s.active ∧ (route p f s).staged = s.staged ∧ (route p f s).tare =
    s.tare := by
  unfold route
  try dsimp only
  repeat' split
  all_goals simp

@[simp] theorem emptyBuffer_same (p : Port) (s : State) :
    (emptyBuffer p s).pending = s.pending ∧ (emptyBuffer p s).now = s.now ∧ (emptyBuffer p s).axisTab = s.axisTab ∧
    (emptyBuffer p s).pairTab = s.pairTab ∧ (emptyBuffer p s).lineTab = s.lineTab ∧ (emptyBuffer p s).settings =
    s.settings ∧ (emptyBuffer p s).ctx = s.ctx ∧ (emptyBuffer p s).judged = s.judged ∧ (emptyBuffer p s).choices =
    s.choices ∧ (emptyBuffer p s).anyFault = s.anyFault ∧ (emptyBuffer p s).inMotion = s.inMotion ∧ (emptyBuffer p
    s).lines = s.lines ∧ (emptyBuffer p s).active = s.active ∧ (emptyBuffer p s).staged = s.staged ∧ (emptyBuffer p
    s).tare = s.tare ∧ (emptyBuffer p s).req = s.req ∧ (emptyBuffer p s).ev = s.ev ∧ (emptyBuffer p s).cyc = s.cyc ∧
    (emptyBuffer p s).engine = s.engine ∧ (emptyBuffer p s).fb = s.fb ∧ (emptyBuffer p s).down = s.down ∧ (emptyBuffer
    p s).up = s.up := by
  unfold emptyBuffer
  try dsimp only
  repeat' split
  all_goals simp

@[simp] theorem writeAxis_same (x : Axis) (b : AxisBody) (s : State) :
    (writeAxis x b s).pending = s.pending ∧ (writeAxis x b s).now = s.now ∧ (writeAxis x b s).rxC = s.rxC ∧ (writeAxis
    x b s).rxD = s.rxD ∧ (writeAxis x b s).pairTab = s.pairTab ∧ (writeAxis x b s).lineTab = s.lineTab ∧ (writeAxis x
    b s).settings = s.settings ∧ (writeAxis x b s).judged = s.judged ∧ (writeAxis x b s).choices = s.choices ∧
    (writeAxis x b s).lines = s.lines ∧ (writeAxis x b s).active = s.active ∧ (writeAxis x b s).staged = s.staged ∧
    (writeAxis x b s).tare = s.tare ∧ (writeAxis x b s).req = s.req ∧ (writeAxis x b s).ev = s.ev ∧ (writeAxis x b
    s).cyc = s.cyc ∧ (writeAxis x b s).engine = s.engine ∧ (writeAxis x b s).fb = s.fb ∧ (writeAxis x b s).down =
    s.down ∧ (writeAxis x b s).up = s.up := by
  unfold writeAxis
  try dsimp only
  simp

@[simp] theorem writePair_same (i : PairIndex) (b : PairBody) (s : State) :
    (writePair i b s).pending = s.pending ∧ (writePair i b s).now = s.now ∧ (writePair i b s).rxC = s.rxC ∧ (writePair
    i b s).rxD = s.rxD ∧ (writePair i b s).axisTab = s.axisTab ∧ (writePair i b s).lineTab = s.lineTab ∧ (writePair i
    b s).settings = s.settings ∧ (writePair i b s).ctx = s.ctx ∧ (writePair i b s).judged = s.judged ∧ (writePair i b
    s).choices = s.choices ∧ (writePair i b s).anyFault = s.anyFault ∧ (writePair i b s).inMotion = s.inMotion ∧
    (writePair i b s).lines = s.lines ∧ (writePair i b s).active = s.active ∧ (writePair i b s).staged = s.staged ∧
    (writePair i b s).tare = s.tare ∧ (writePair i b s).req = s.req ∧ (writePair i b s).ev = s.ev ∧ (writePair i b
    s).cyc = s.cyc ∧ (writePair i b s).engine = s.engine ∧ (writePair i b s).fb = s.fb ∧ (writePair i b s).down =
    s.down ∧ (writePair i b s).up = s.up := by
  unfold writePair
  try dsimp only
  simp

@[simp] theorem writeLine_same (l : Line) (b : InterlockBody) (s : State) :
    (writeLine l b s).pending = s.pending ∧ (writeLine l b s).now = s.now ∧ (writeLine l b s).rxC = s.rxC ∧ (writeLine
    l b s).rxD = s.rxD ∧ (writeLine l b s).axisTab = s.axisTab ∧ (writeLine l b s).pairTab = s.pairTab ∧ (writeLine l
    b s).settings = s.settings ∧ (writeLine l b s).ctx = s.ctx ∧ (writeLine l b s).judged = s.judged ∧ (writeLine l b
    s).choices = s.choices ∧ (writeLine l b s).anyFault = s.anyFault ∧ (writeLine l b s).inMotion = s.inMotion ∧
    (writeLine l b s).active = s.active ∧ (writeLine l b s).staged = s.staged ∧ (writeLine l b s).tare = s.tare ∧
    (writeLine l b s).req = s.req ∧ (writeLine l b s).cyc = s.cyc ∧ (writeLine l b s).engine = s.engine ∧ (writeLine l
    b s).fb = s.fb ∧ (writeLine l b s).down = s.down ∧ (writeLine l b s).up = s.up := by
  unfold writeLine
  try dsimp only
  simp

@[simp] theorem eraseAxis_same (x : Axis) (s : State) :
    (eraseAxis x s).pending = s.pending ∧ (eraseAxis x s).now = s.now ∧ (eraseAxis x s).rxC = s.rxC ∧ (eraseAxis x
    s).rxD = s.rxD ∧ (eraseAxis x s).pairTab = s.pairTab ∧ (eraseAxis x s).lineTab = s.lineTab ∧ (eraseAxis x
    s).settings = s.settings ∧ (eraseAxis x s).judged = s.judged ∧ (eraseAxis x s).choices = s.choices ∧ (eraseAxis x
    s).lines = s.lines ∧ (eraseAxis x s).tare = s.tare ∧ (eraseAxis x s).req = s.req ∧ (eraseAxis x s).ev = s.ev ∧
    (eraseAxis x s).cyc = s.cyc ∧ (eraseAxis x s).engine = s.engine ∧ (eraseAxis x s).fb = s.fb ∧ (eraseAxis x s).down
    = s.down ∧ (eraseAxis x s).up = s.up := by
  unfold eraseAxis
  try dsimp only
  simp

@[simp] theorem erasePair_same (i : PairIndex) (s : State) :
    (erasePair i s).pending = s.pending ∧ (erasePair i s).now = s.now ∧ (erasePair i s).rxC = s.rxC ∧ (erasePair i
    s).rxD = s.rxD ∧ (erasePair i s).axisTab = s.axisTab ∧ (erasePair i s).lineTab = s.lineTab ∧ (erasePair i
    s).settings = s.settings ∧ (erasePair i s).ctx = s.ctx ∧ (erasePair i s).judged = s.judged ∧ (erasePair i
    s).choices = s.choices ∧ (erasePair i s).anyFault = s.anyFault ∧ (erasePair i s).inMotion = s.inMotion ∧
    (erasePair i s).lines = s.lines ∧ (erasePair i s).active = s.active ∧ (erasePair i s).staged = s.staged ∧
    (erasePair i s).tare = s.tare ∧ (erasePair i s).req = s.req ∧ (erasePair i s).ev = s.ev ∧ (erasePair i s).cyc =
    s.cyc ∧ (erasePair i s).engine = s.engine ∧ (erasePair i s).fb = s.fb ∧ (erasePair i s).down = s.down ∧ (erasePair
    i s).up = s.up := by
  unfold erasePair
  try dsimp only
  simp

@[simp] theorem eraseLine_same (l : Line) (s : State) :
    (eraseLine l s).pending = s.pending ∧ (eraseLine l s).now = s.now ∧ (eraseLine l s).rxC = s.rxC ∧ (eraseLine l
    s).rxD = s.rxD ∧ (eraseLine l s).axisTab = s.axisTab ∧ (eraseLine l s).pairTab = s.pairTab ∧ (eraseLine l
    s).settings = s.settings ∧ (eraseLine l s).ctx = s.ctx ∧ (eraseLine l s).judged = s.judged ∧ (eraseLine l
    s).choices = s.choices ∧ (eraseLine l s).anyFault = s.anyFault ∧ (eraseLine l s).inMotion = s.inMotion ∧
    (eraseLine l s).active = s.active ∧ (eraseLine l s).staged = s.staged ∧ (eraseLine l s).tare = s.tare ∧ (eraseLine
    l s).req = s.req ∧ (eraseLine l s).cyc = s.cyc ∧ (eraseLine l s).engine = s.engine ∧ (eraseLine l s).fb = s.fb ∧
    (eraseLine l s).down = s.down ∧ (eraseLine l s).up = s.up := by
  unfold eraseLine
  try dsimp only
  simp

@[simp] theorem untareAxis_same (x : Axis) (s : State) :
    (untareAxis x s).pending = s.pending ∧ (untareAxis x s).now = s.now ∧ (untareAxis x s).rxC = s.rxC ∧ (untareAxis x
    s).rxD = s.rxD ∧ (untareAxis x s).pairTab = s.pairTab ∧ (untareAxis x s).lineTab = s.lineTab ∧ (untareAxis x
    s).settings = s.settings ∧ (untareAxis x s).judged = s.judged ∧ (untareAxis x s).choices = s.choices ∧ (untareAxis
    x s).lines = s.lines ∧ (untareAxis x s).active = s.active ∧ (untareAxis x s).staged = s.staged ∧ (untareAxis x
    s).tare = s.tare ∧ (untareAxis x s).req = s.req ∧ (untareAxis x s).ev = s.ev ∧ (untareAxis x s).cyc = s.cyc ∧
    (untareAxis x s).engine = s.engine ∧ (untareAxis x s).fb = s.fb ∧ (untareAxis x s).down = s.down ∧ (untareAxis x
    s).up = s.up := by
  unfold untareAxis
  try dsimp only
  simp

@[simp] theorem writeSettings_same (r : Settings) (s : State) :
    (writeSettings r s).pending = s.pending ∧ (writeSettings r s).now = s.now ∧ (writeSettings r s).rxC = s.rxC ∧
    (writeSettings r s).rxD = s.rxD ∧ (writeSettings r s).axisTab = s.axisTab ∧ (writeSettings r s).pairTab =
    s.pairTab ∧ (writeSettings r s).lineTab = s.lineTab ∧ (writeSettings r s).judged = s.judged ∧ (writeSettings r
    s).choices = s.choices ∧ (writeSettings r s).lines = s.lines ∧ (writeSettings r s).active = s.active ∧
    (writeSettings r s).staged = s.staged ∧ (writeSettings r s).tare = s.tare ∧ (writeSettings r s).req = s.req ∧
    (writeSettings r s).ev = s.ev ∧ (writeSettings r s).cyc = s.cyc ∧ (writeSettings r s).engine = s.engine ∧
    (writeSettings r s).fb = s.fb ∧ (writeSettings r s).down = s.down ∧ (writeSettings r s).up = s.up := by
  unfold writeSettings
  try dsimp only
  simp

@[simp] theorem takeGroup_same (e : Envelope) (g : CueGroup) (s : State) :
    (takeGroup e g s).pending = s.pending ∧ (takeGroup e g s).now = s.now ∧ (takeGroup e g s).rxC = s.rxC ∧ (takeGroup
    e g s).rxD = s.rxD ∧ (takeGroup e g s).axisTab = s.axisTab ∧ (takeGroup e g s).pairTab = s.pairTab ∧ (takeGroup e
    g s).lineTab = s.lineTab ∧ (takeGroup e g s).settings = s.settings ∧ (takeGroup e g s).judged = s.judged ∧
    (takeGroup e g s).choices = s.choices ∧ (takeGroup e g s).lines = s.lines ∧ (takeGroup e g s).cyc = s.cyc ∧
    (takeGroup e g s).engine = s.engine ∧ (takeGroup e g s).fb = s.fb ∧ (takeGroup e g s).down = s.down ∧ (takeGroup e
    g s).up = s.up := by
  unfold takeGroup
  try dsimp only
  simp

@[simp] theorem haltSet_same (e : Envelope) (x : AxisSet) (s : State) :
    (haltSet e x s).pending = s.pending ∧ (haltSet e x s).now = s.now ∧ (haltSet e x s).rxC = s.rxC ∧ (haltSet e x
    s).rxD = s.rxD ∧ (haltSet e x s).axisTab = s.axisTab ∧ (haltSet e x s).pairTab = s.pairTab ∧ (haltSet e x
    s).lineTab = s.lineTab ∧ (haltSet e x s).settings = s.settings ∧ (haltSet e x s).judged = s.judged ∧ (haltSet e x
    s).choices = s.choices ∧ (haltSet e x s).lines = s.lines ∧ (haltSet e x s).active = s.active ∧ (haltSet e x
    s).staged = s.staged ∧ (haltSet e x s).tare = s.tare ∧ (haltSet e x s).cyc = s.cyc ∧ (haltSet e x s).engine =
    s.engine ∧ (haltSet e x s).fb = s.fb ∧ (haltSet e x s).down = s.down ∧ (haltSet e x s).up = s.up := by
  unfold haltSet
  try dsimp only
  simp

@[simp] theorem acceptMode_same (e : Envelope) (m : Mode) (s : State) :
    (acceptMode e m s).pending = s.pending ∧ (acceptMode e m s).now = s.now ∧ (acceptMode e m s).rxC = s.rxC ∧
    (acceptMode e m s).rxD = s.rxD ∧ (acceptMode e m s).axisTab = s.axisTab ∧ (acceptMode e m s).pairTab = s.pairTab ∧
    (acceptMode e m s).lineTab = s.lineTab ∧ (acceptMode e m s).settings = s.settings ∧ (acceptMode e m s).ctx = s.ctx
    ∧ (acceptMode e m s).judged = s.judged ∧ (acceptMode e m s).choices = s.choices ∧ (acceptMode e m s).anyFault =
    s.anyFault ∧ (acceptMode e m s).inMotion = s.inMotion ∧ (acceptMode e m s).lines = s.lines ∧ (acceptMode e m
    s).active = s.active ∧ (acceptMode e m s).staged = s.staged ∧ (acceptMode e m s).cyc = s.cyc ∧ (acceptMode e m
    s).engine = s.engine ∧ (acceptMode e m s).fb = s.fb ∧ (acceptMode e m s).down = s.down ∧ (acceptMode e m s).up =
    s.up := by
  unfold acceptMode
  try dsimp only
  simp

end Sys2Proof.Machine
end

