-- ==== Sys2Proof/Laws/Tables.lean ====
section
/-! SUPPORT. Reading a table after a write: `tget` against `tset`, `tmap` and `tzip`. -/

namespace Sys2Proof.Machine

variable {α β : Type} {n : Nat}

@[simp] theorem tget_tset_same (v : Vector α n) (i : Fin n) (x : α) : tget (tset v i x) i = x := by
  simp [tget, tset]

theorem tget_tset_other (v : Vector α n) {i j : Fin n} (x : α) (h : j ≠ i) : tget (tset v i x) j = tget v j := by
  have h' : i.val ≠ j.val := fun e => h (Fin.ext e.symm)
  simp [tget, tset, Vector.getElem_set_ne, h']

/-- One read after one write, in one rule. -/
theorem tget_tset (v : Vector α n) (i j : Fin n) (x : α) :
    tget (tset v i x) j = if j = i then x else tget v j := by
  by_cases h : j = i
  · subst h
    simp
  · simp [h, tget_tset_other]

@[simp] theorem tget_tmap (f : Fin n → α → β) (v : Vector α n) (i : Fin n) : tget (tmap f v) i = f i (tget v i) := by
  simp [tget, tmap]

@[simp] theorem tget_replicate (x : α) (i : Fin n) : tget (Vector.replicate n x) i = x := by simp [tget]

/-- Two tables with the same entries are equal. -/
theorem table_ext {v w : Vector α n} (h : ∀ i, tget v i = tget w i) : v = w := by
  apply Vector.ext
  intro i hi
  exact h ⟨i, hi⟩

@[simp] theorem tset_tget (v : Vector α n) (i : Fin n) : tset v i (tget v i) = v :=
  table_ext (fun j => by rw [tget_tset]; split <;> simp_all)

@[simp] theorem tset_tset (v : Vector α n) (i : Fin n) (x y : α) : tset (tset v i x) i y = tset v i y :=
  table_ext (fun j => by simp only [tget_tset]; split <;> rfl)

/-- The entries of a table with their indexes are exactly the pairs of an index and the entry there. -/
theorem mem_tzip (v : Vector α n) (i : Fin n) (x : α) : (i, x) ∈ tzip v ↔ tget v i = x := by
  simp only [tzip, List.mem_iff_getElem, Prod.mk.injEq, List.getElem_zip, tget]
  constructor
  · rintro ⟨k, hk, h1, h2⟩
    simp only [List.getElem_finRange] at h1
    subst h1
    simpa using h2
  · intro h
    refine ⟨i.val, by simp, by simp, by simpa using h⟩

/-- A table holds an entry that a test accepts just when the test accepts the entry at some index. -/
theorem any_toList (v : Vector α n) (p : α → Bool) : v.toList.any p = true ↔ ∃ i, p (tget v i) = true := by
  simp only [List.any_eq_true, tget]
  constructor
  · rintro ⟨x, hx, hp⟩
    obtain ⟨i, hi, rfl⟩ := List.mem_iff_getElem.mp hx
    exact ⟨⟨i, by simpa using hi⟩, by simpa using hp⟩
  · rintro ⟨i, hp⟩
    exact ⟨v[i], by simp, hp⟩

/-- The number of a table's entry, when it is one. -/
theorem toIndex_eq_some {k : Nat} (i : Fin n) : toIndex n k = some i ↔ i.val = k := by
  unfold toIndex
  split
  · simp [Fin.ext_iff, eq_comm]
  · simp only [reduceCtorEq, false_iff]
    omega

theorem toIndex_eq_none {k : Nat} : toIndex n k = none ↔ n ≤ k := by
  unfold toIndex
  split <;> simp <;> omega

@[simp] theorem toIndex_val (i : Fin n) : toIndex n i.val = some i := (toIndex_eq_some i).mpr rfl

end Sys2Proof.Machine
end

