-- ==== Sys2Proof/Laws/Contexts.lean ====
section
/-! SUPPORT. The axis context store: what a read of a context finds after each operation on contexts, and the two outputs. -/

namespace Sys2Proof.Machine

/-! ## Reads after the primitive changes -/

theorem ctxOf_setCtx (a x : Axis) (c : AxisCtx) (s : State) :
    ctxOf (setCtx a c s) x = if x = a then c else ctxOf s x := by
  simp [ctxOf, tget_tset]

@[simp] theorem ctxOf_setCtx_same (a : Axis) (c : AxisCtx) (s : State) : ctxOf (setCtx a c s) a = c := by
  simp [ctxOf_setCtx]

theorem ctxOf_setCtx_other {a x : Axis} (h : x ≠ a) (c : AxisCtx) (s : State) :
    ctxOf (setCtx a c s) x = ctxOf s x := by simp [ctxOf_setCtx, h]

@[simp] theorem ctxOf_mapCtx (f : Axis → AxisCtx → AxisCtx) (s : State) (x : Axis) :
    ctxOf (mapCtx f s) x = f x (ctxOf s x) := by simp [ctxOf]

/-- A context reads the same in two states with the same contexts. -/
theorem ctxOf_congr {s t : State} (h : t.ctx = s.ctx) (x : Axis) : ctxOf t x = ctxOf s x := by rw [ctxOf, ctxOf, h]

/-- A record reads the same in two states with the same axis table. -/
theorem bodyOf_congr {s t : State} (h : t.axisTab = s.axisTab) (x : Axis) : bodyOf t x = bodyOf s x := by
  rw [bodyOf, bodyOf, h]

/-! ## Stops and faults -/

/-- The context of an axis for which a stop is taken between screenings (R25, R36). -/
def AxisCtx.stoppedBetween (k : StopCause) (c : AxisCtx) : AxisCtx := if c.state = .tracking then c.stopped k else c

@[simp] theorem stopBetween_ctx (a : Axis) (k : StopCause) (s : State) :
    (stopBetween a k s).ctx = tset s.ctx a ((ctxOf s a).stoppedBetween k) := by
  unfold stopBetween AxisCtx.stoppedBetween
  dsimp only
  split <;> simp [ctxOf]

theorem ctxOf_stopBetween (a x : Axis) (k : StopCause) (s : State) :
    ctxOf (stopBetween a k s) x = if x = a then (ctxOf s a).stoppedBetween k else ctxOf s x := by
  simp only [ctxOf, stopBetween_ctx, tget_tset]

@[simp] theorem informTare_ctx (s : State) : (informTare s).ctx = s.ctx := (informTare_same s).2.2.2.2.2.2.2.2.1

@[simp] theorem takeFault_ctx (a : Axis) (f : AxisFault) (s : State) :
    (takeFault a f s).ctx = tset s.ctx a ((ctxOf s a).takeFault f) := by simp [takeFault]

theorem ctxOf_takeFault (a x : Axis) (f : AxisFault) (s : State) :
    ctxOf (takeFault a f s) x = if x = a then (ctxOf s a).takeFault f else ctxOf s x := by
  simp only [ctxOf, takeFault_ctx, tget_tset]

@[simp] theorem ctxOf_takeFault_same (a : Axis) (f : AxisFault) (s : State) :
    ctxOf (takeFault a f s) a = (ctxOf s a).takeFault f := by simp [ctxOf_takeFault]

/-- After a fault for a configured axis the axis is FAULTED (R30, R31). -/
theorem takeFault_faulted (f : AxisFault) (c : AxisCtx) (h : c.state ≠ .unconfigured) :
    (c.takeFault f).state = .faulted := by
  unfold AxisCtx.takeFault
  split <;> simp_all [AxisCtx.toFaulted]

/-! ## The outputs (R39, R40) -/

/-- The outputs as functions of the contexts. -/
def PinsFollow (s : State) : Prop :=
  s.anyFault = someAxis (· == .faulted) s.ctx ∧ s.inMotion = someAxis AxisState.moving s.ctx

theorem pinsFollow_withContexts (v : Vector AxisCtx 128) (s : State) : PinsFollow (withContexts v s) := ⟨rfl, rfl⟩

theorem pinsFollow_setCtx (a : Axis) (c : AxisCtx) (s : State) : PinsFollow (setCtx a c s) := ⟨rfl, rfl⟩

theorem pinsFollow_mapCtx (f : Axis → AxisCtx → AxisCtx) (s : State) : PinsFollow (mapCtx f s) := ⟨rfl, rfl⟩

/-- The outputs follow in a state that has another's contexts and outputs. -/
theorem PinsFollow.of_same {s t : State} (h : PinsFollow s) (hc : t.ctx = s.ctx) (hf : t.anyFault = s.anyFault)
    (hm : t.inMotion = s.inMotion) : PinsFollow t := by
  unfold PinsFollow at *
  rw [hc, hf, hm]
  exact h

theorem someAxis_iff (test : AxisState → Bool) (s : State) :
    someAxis test s.ctx = true ↔ ∃ x, test (ctxOf s x).state = true := by
  unfold someAxis
  exact any_toList s.ctx (fun c => test c.state)

end Sys2Proof.Machine
end

