-- ==== Sys2Proof/Laws/Events.lean ====
section
/-! SUPPORT. The event unit: what raising and offering keep (R175, R177, R178), and that the operations of the part change the
event unit by raising events only. -/

namespace Sys2Proof.Machine

/-! ## The queue (R178) -/

theorem length_insertByClass (e : QueuedEvent) (q : List QueuedEvent) :
    (insertByClass e q).length = q.length + 1 := by
  induction q with
  | nil => rfl
  | cons x xs ih => unfold insertByClass; split <;> simp [ih]

theorem mem_insertByClass {e y : QueuedEvent} {q : List QueuedEvent} : y ∈ insertByClass e q ↔ y = e ∨ y ∈ q := by
  induction q with
  | nil => simp [insertByClass]
  | cons x xs ih => unfold insertByClass; split <;> simp [ih]; tauto

/-- Entering an event as the newest of its class keeps the order of classes. -/
theorem ordered_insertByClass (e : QueuedEvent) {q : List QueuedEvent} (h : q.Pairwise (fun a b => a.rank ≤ b.rank)) :
    (insertByClass e q).Pairwise (fun a b => a.rank ≤ b.rank) := by
  induction q with
  | nil => simp [insertByClass]
  | cons x xs ih =>
    obtain ⟨hx, hxs⟩ := List.pairwise_cons.mp h
    unfold insertByClass
    split
    · rename_i hle
      refine List.pairwise_cons.mpr ⟨?_, ih hxs⟩
      intro y hy
      rcases mem_insertByClass.mp hy with rfl | hy
      · exact hle
      · exact hx y hy
    · rename_i hlt
      refine List.pairwise_cons.mpr ⟨?_, h⟩
      intro y hy
      rcases List.mem_cons.mp hy with rfl | hy
      · omega
      · have := hx y hy; omega

theorem dropNewest_sublist (k : Nat) (q : List QueuedEvent) : (dropNewest k q).Sublist q := by
  induction q with
  | nil => exact List.Sublist.refl _
  | cons x xs ih =>
    unfold dropNewest
    split
    · exact ih.cons_cons x
    · split
      · exact List.sublist_cons_self x xs
      · exact List.Sublist.refl _

/-- Discarding the newest event of a class that is present takes one event out. -/
theorem length_dropNewest {k : Nat} {q : List QueuedEvent} (h : ∃ y ∈ q, y.rank = k) :
    (dropNewest k q).length + 1 = q.length := by
  induction q with
  | nil => simp at h
  | cons x xs ih =>
    unfold dropNewest
    split
    · rename_i ha
      obtain ⟨y, hy, hk⟩ := List.any_eq_true.mp ha
      have := ih ⟨y, hy, by simpa using hk⟩
      simp [this]
    · rename_i ha
      have hx : x.rank = k := by
        obtain ⟨y, hy, hk⟩ := h
        rcases List.mem_cons.mp hy with rfl | hy
        · exact hk
        · exact absurd (List.any_eq_true.mpr ⟨y, hy, by simpa using hk⟩) ha
      simp [hx]

/-- The largest class present in a queue that is not empty is the class of one of its events. -/
theorem largestClass_mem {q : List QueuedEvent} (h : q ≠ []) : ∃ y ∈ q, y.rank = largestClass q := by
  induction q with
  | nil => exact absurd rfl h
  | cons x xs ih =>
    by_cases hxs : xs = []
    · subst hxs; exact ⟨x, by simp, by simp [largestClass]⟩
    · obtain ⟨y, hy, hk⟩ := ih hxs
      unfold largestClass
      rcases Nat.le_total x.rank (largestClass xs) with hle | hle
      · exact ⟨y, by simp [hy], by omega⟩
      · exact ⟨x, by simp, by omega⟩

/-! ## What the event unit keeps -/

theorem offer_latches (e : QueuedEvent) (u : EventUnit) : (u.offer e).latches = u.latches := by
  unfold EventUnit.offer EventUnit.setLost
  split <;> [rfl; split <;> rfl]

theorem offer_mask (e : QueuedEvent) (u : EventUnit) : (u.offer e).mask = u.mask := by
  unfold EventUnit.offer EventUnit.setLost
  split <;> [rfl; split <;> rfl]

theorem offer_reportDue (e : QueuedEvent) (u : EventUnit) : (u.offer e).reportDue = u.reportDue := by
  unfold EventUnit.offer EventUnit.setLost
  split <;> [rfl; split <;> rfl]

/-- An offered event keeps the laws of the event unit (R178). -/
theorem EventUnit.Lawful.offer {u : EventUnit} (h : u.Lawful) {e : QueuedEvent} (he : 1 ≤ e.count ∧ e.count ≤ 255) :
    (u.offer e).Lawful := by
  have hl := offer_latches e u
  unfold EventUnit.offer at hl ⊢
  split at hl <;> rename_i hroom
  · simp only [hroom, if_true]
    refine ⟨?_, ordered_insertByClass e h.ordered, ?_, h.latches⟩
    · rw [length_insertByClass]
      exact hroom
    · intro q hq
      rcases mem_insertByClass.mp hq with rfl | hq
      · exact he
      · exact h.counts q hq
  · simp only [hroom, if_false]
    split
    · have hne : u.queue ≠ [] := by
        rintro h0
        rw [h0] at hroom
        simp [Config.eventRoom] at hroom
      have hlen := length_dropNewest (largestClass_mem hne)
      have hroom' := h.room
      refine ⟨?_, ordered_insertByClass e (h.ordered.sublist (dropNewest_sublist _ _)), ?_, h.latches⟩
      · simp only [EventUnit.setLost, length_insertByClass]
        omega
      · intro q hq
        rcases mem_insertByClass.mp hq with rfl | hq
        · exact he
        · exact h.counts q ((dropNewest_sublist _ _).mem hq)
    · exact ⟨h.room, h.ordered, h.counts, h.latches⟩

/-- A raised event keeps the laws of the event unit (R175, R177, R178). -/
theorem EventUnit.Lawful.raise {u : EventUnit} (h : u.Lawful) (e : Event) : (u.raise e).Lawful := by
  unfold EventUnit.raise
  split
  · split
    · rename_i k hk
      refine ⟨h.room, h.ordered, h.counts, ?_⟩
      intro j q hq
      simp only [EventUnit.latchEvent, tget_tset] at hq
      split at hq
      · rename_i hj
        subst hj
        cases hq
        refine ⟨hk, ?_⟩
        cases hheld : tget u.latches j with
        | none => exact ⟨le_refl 1, (by decide : 1 ≤ 255)⟩
        | some held =>
          have := (h.latches j held hheld).2
          exact ⟨by show 1 ≤ min (held.count + 1) 255; omega, by show min (held.count + 1) 255 ≤ 255; omega⟩
      · exact h.latches j q hq
    · exact h
  · exact h.offer ⟨le_refl 1, (by decide : 1 ≤ 255)⟩

/-! ## Changes by raising only -/

/-- `v` is `u` after some events have been raised, one after another. -/
def EventUnit.Raised (u v : EventUnit) : Prop := ∃ es : List Event, v = es.foldl (fun w e => w.raise e) u

theorem EventUnit.Raised.refl (u : EventUnit) : u.Raised u := ⟨[], rfl⟩

theorem EventUnit.Raised.trans {u v w : EventUnit} (h : u.Raised v) (k : v.Raised w) : u.Raised w := by
  obtain ⟨es, rfl⟩ := h
  obtain ⟨fs, rfl⟩ := k
  exact ⟨es ++ fs, by rw [List.foldl_append]⟩

theorem EventUnit.Raised.one (u : EventUnit) (e : Event) : u.Raised (u.raise e) := ⟨[e], rfl⟩

theorem EventUnit.Raised.lawful {u v : EventUnit} (h : u.Raised v) (hu : u.Lawful) : v.Lawful := by
  obtain ⟨es, rfl⟩ := h
  induction es generalizing u with
  | nil => exact hu
  | cons e es ih => exact ih (hu.raise e)

theorem raise_mask (e : Event) (u : EventUnit) : (u.raise e).mask = u.mask := by
  unfold EventUnit.raise EventUnit.latchEvent
  split <;> [split <;> rfl; exact offer_mask _ _]

theorem raise_reportDue (e : Event) (u : EventUnit) : (u.raise e).reportDue = u.reportDue := by
  unfold EventUnit.raise EventUnit.latchEvent
  split <;> [split <;> rfl; exact offer_reportDue _ _]

/-- Raising changes neither the mask nor the report timer (R174, R179). -/
theorem EventUnit.Raised.kept {u v : EventUnit} (h : u.Raised v) : v.mask = u.mask ∧ v.reportDue = u.reportDue := by
  obtain ⟨es, rfl⟩ := h
  induction es generalizing u with
  | nil => exact ⟨rfl, rfl⟩
  | cons e es ih =>
    obtain ⟨h1, h2⟩ := @ih (u.raise e)
    exact ⟨by rw [List.foldl_cons, h1, raise_mask], by rw [List.foldl_cons, h2, raise_reportDue]⟩

theorem raise_raised (e : Event) (s : State) : s.ev.Raised (raise e s).ev := .one _ e

theorem raiseAll_ev (es : List Event) (s : State) : (raiseAll es s).ev = es.foldl (fun u e => u.raise e) s.ev := by
  unfold raiseAll
  induction es generalizing s with
  | nil => rfl
  | cons e es ih => simpa using ih (raise e s)

theorem raiseAll_raised (es : List Event) (s : State) : s.ev.Raised (raiseAll es s).ev := ⟨es, raiseAll_ev es s⟩

end Sys2Proof.Machine
end

