-- ==== Sys2Proof/Laws/Screening.lean ====
section
/-! SUPPORT. The screening engine: the two screening commands as one, and the conditions that the meanings test, in the words of
the statements. -/

namespace Sys2Proof.Machine

/-- The one way in which either screening command screens an axis (R43, R44). -/
theorem Screens.exec_eq {s : State} {x : Axis} {cmd req e} (h : Screens s x cmd req e) :
    exec cmd s = .next (screenAndFix x req e s) ∧ (ctxOf s x).state ≠ .unconfigured := by
  cases h with
  | record e r rest h =>
    refine ⟨?_, h.configured⟩
    have hx : toIndex 128 r.axis.toNat = some x := by rw [toIndex_eq_some]; exact h.axis.symm
    simp only [exec, execScreenConsoleRecord, h.engine, h.todo, takeConsoleRecord, hx, if_neg h.configured]
    have : Screening.hasScreened { e with todo := rest } x = false := h.fresh
    simp [this]
  | unnamed e h =>
    refine ⟨?_, h.configured⟩
    have hp : passes s e e.nextAxis x.val = true := by
      simp only [passes, List.all_eq_true]
      intro y _
      by_cases h1 : y.val < e.nextAxis
      · simp [h1]
      · by_cases h2 : x.val ≤ y.val
        · simp [h2]
        · by_cases h3 : (ctxOf s y).state = .unconfigured
          · simp [screenable, h3]
          · simp [screenable, h.before y (by omega) (by omega) h3]
    have hs : screenable s e x = true := by simp [screenable, h.configured, h.fresh]
    simp [exec, execScreenUnnamedAxis, h.engine, h.todo, h.reached, hp, hs]

/-- The actions that the meaning gathers are those whose entries bear on the axis (R90). -/
theorem bears_iff (s : State) (x : Axis) (a : Action) : a ∈ actionsOn s x ↔ Bears s x a := by
  simp only [actionsOn, List.mem_filterMap, Bears, Prod.exists]
  constructor
  · rintro ⟨l, v, hm, h⟩
    rw [mem_tzip] at hm
    subst hm
    split at h
    · rename_i b hb
      split at h
      · rename_i hc
        cases h
        simp only [Bool.and_eq_true, InterlockBody.assertedAt, AxisSet.covers] at hc
        refine ⟨l, b, hb, rfl, by simpa using hc.1, ?_⟩
        revert hc
        cases hax : b.axes <;> simp
      · cases h
    · cases h
  · rintro ⟨l, b, hb, rfl, h1, h2⟩
    refine ⟨l, _, (mem_tzip _ _ _).mpr rfl, ?_⟩
    rw [hb]
    have : (b.assertedAt (tget s.lines l) && AxisSet.covers x b.axes) = true := by
      simp only [Bool.and_eq_true, InterlockBody.assertedAt]
      refine ⟨by simpa using h1, ?_⟩
      rcases h2 with h2 | ⟨axes, h2, h3⟩ <;> simp [AxisSet.covers, *]
    simp [this]

/-- The capture test of the meaning is the capture conditions (R61). -/
theorem mayCapture_iff (s : State) (x : Axis) (b : AxisBody) (p r : Int) (c : AxisCtx)
    (hc : c.capture = (ctxOf s x).capture) :
    mayCapture s x b p r c = true ↔ MayCapture s x b p r := by
  simp only [mayCapture, Bool.and_eq_true, decide_eq_true_eq, inActive]
  have hb := bears_iff s x .halt
  constructor
  · rintro ⟨⟨⟨h1, h2⟩, h3⟩, h4⟩
    refine ⟨?_, by rw [← hc]; exact h2, ?_, h4⟩
    · cases ha : s.active <;> simp [ha] at h1
      exact ⟨_, rfl, h1⟩
    · rw [← hb]; simpa using h3
  · rintro ⟨⟨g, h1, h1'⟩, h2, h3, h4⟩
    refine ⟨⟨⟨by simp [h1, h1'], by rw [hc]; exact h2⟩, ?_⟩, h4⟩
    rw [← hb] at h3
    simpa using h3

/-! ## Outcomes that are no clamps (R33) -/

@[simp] theorem clamped_idle : ScreenOutcome.clamped .idle = false := rfl

@[simp] theorem clamped_ramp : ScreenOutcome.clamped .ramp = false := rfl

@[simp] theorem clamped_refused : ScreenOutcome.clamped .refused = false := rfl

@[simp] theorem clamped_pass : ScreenOutcome.clamped .pass = false := rfl

@[simp] theorem clamped_clampAccel : ScreenOutcome.clamped .clampAccel = true := rfl

@[simp] theorem clamped_clampSpeed : ScreenOutcome.clamped .clampSpeed = true := rfl

/-- The least of a value and a list is below each of them and is one of them (R49). -/
theorem foldl_min (l : List Int) (a : Int) :
    (∀ v ∈ l, l.foldl min a ≤ v) ∧ l.foldl min a ≤ a ∧ (l.foldl min a = a ∨ l.foldl min a ∈ l) := by
  induction l generalizing a with
  | nil => simp
  | cons y ys ih =>
    obtain ⟨h1, h2, h3⟩ := ih (min a y)
    simp only [List.foldl_cons, List.mem_cons]
    refine ⟨?_, by omega, ?_⟩
    · rintro v (rfl | hv)
      · omega
      · exact h1 v hv
    · rcases h3 with h3 | h3
      · rcases min_choice a y with h | h
        · left; rw [h3, h]
        · right; left; rw [h3, h]
      · right; right; exact h3

end Sys2Proof.Machine
end

