-- ==== Sys2Proof/Laws/Feedback.lean ====
section
/-! SUPPORT. The two blocks that take faults: how an append and a feedback record reach the judgement of their axis, and what the
checks of a record do, in the words of the statements. -/

namespace Sys2Proof.Machine

/-! ## What the other block's change found (R31) -/

/-- No change of the other block has faulted the axis at this moment. -/
theorem foundBefore_eq_none {s : State} {j x} (h : ∀ found, ¬ FaultedNow s j x found) : foundBefore j x s = none := by
  unfold foundBefore
  split
  · rfl
  · rename_i k hk
    split
    · rename_i hc
      obtain ⟨rfl, rfl, h3, h4, h5⟩ := hc
      exact absurd ⟨by rw [hk, ← h3], h4, h5⟩ (h k.found)
    · rfl

theorem foundBefore_not_faulted {s : State} {j x} (h : (ctxOf s x).state ≠ .faulted) : foundBefore j x s = none :=
  foundBefore_eq_none (fun _ hf => h hf.2.1)

theorem foundBefore_faulted {s : State} {j x found} (h : FaultedNow s j x found) : foundBefore j x s = some found := by
  unfold foundBefore
  rw [h.1]
  simp [h.2.1, h.2.2]

/-! ## The append (R45) -/

/-- The first two phases are over just when the engine passes every axis that it has not reached (R44). -/
theorem passes_iff (s : State) (e : Screening) : passes s e e.nextAxis 128 = true ↔ AllScreened s e := by
  simp only [passes, screenable, AllScreened, List.all_eq_true, allAxes, List.mem_finRange, forall_const]
  refine forall_congr' fun x => ?_
  have : x.val < 128 := x.isLt
  by_cases h1 : e.nextAxis ≤ x.val <;> by_cases h2 : (ctxOf s x).state = .unconfigured <;> simp [h1, h2]
  omega

theorem AllScreened.passes {s : State} {e : Screening} (h : AllScreened s e) : passes s e e.nextAxis 128 = true :=
  (passes_iff s e).2 h

theorem placedNext_iff (s : State) (x : Axis) : placedNext s = some x ↔ PlacesNext s x := by
  unfold placedNext PlacesNext
  cases h : s.engine with
  | none => simp
  | some e =>
    by_cases h1 : e.todo = [] <;> by_cases h2 : AllScreened s e <;> cases h3 : e.fixed <;>
      simp_all [passes_iff]

/-- The one way in which an append is judged (R45). -/
theorem exec_outstandingAppend {s : State} {e : Screening} {q : DownRecord} {rest : List DownRecord} (he : s.engine = some e)
    (ht : e.todo = []) (ha : AllScreened s e) (hf : e.fixed = q :: rest) :
    exec .outstandingAppend s = .next { (judgeAppend e.seq q s).1 with
      engine := some { e with nextAxis := 128, fixed := rest, placed := e.placed ++ [(judgeAppend e.seq q s).2] } } := by
  simp [exec, execOutstandingAppend, he, hf, ht, ha.passes]

/-! ## What is noted (R31) -/

theorem checkedNext_iff (s : State) (x : Axis) : checkedNext s = some x ↔ ChecksNext s x := by
  unfold checkedNext ChecksNext
  split
  · rename_i r rest more h
    simp only [Option.filter_eq_some_iff, toIndex_eq_some, h]
    constructor
    · rintro ⟨h1, h2⟩
      exact ⟨r, rest, more, rfl, h1.symm, by simpa using h2⟩
    · rintro ⟨_, _, _, h1, h2, h3⟩
      cases h1
      exact ⟨h2.symm, by simpa using h3⟩
  · rename_i h
    simp only [reduceCtorEq, false_iff, not_exists, not_and]
    intro r rest more h1
    exact absurd h1 (h r rest more)

theorem noteJudged_next {judge : Judge} {x : Axis} {s : State} (h : judge.otherNext s = some x) :
    noteJudged judge x s =
      { s with judged := some { judge := judge, axis := x, moment := s.now, found := ctxOf s x } } := by
  simp [noteJudged, h]

theorem noteJudged_not_next {judge : Judge} {x : Axis} {s : State} (h : judge.otherNext s ≠ some x) :
    noteJudged judge x s = { s with judged := s.judged.filter (fun j => j.axis ≠ x) } := by
  simp [noteJudged, h]

/-! ## Matching (R117) -/

theorem matchEntry_append {ack : Word16} {m : OutEntry} {newer : List OutEntry} (hm : m.seq = ack) :
    ∀ {older : List OutEntry}, (∀ o ∈ older, o.seq ≠ ack) → matchEntry ack (older ++ m :: newer) = some (m, newer)
  | [], _ => by simp [matchEntry, hm]
  | o :: older, h => by
    rw [List.cons_append, matchEntry, if_neg (h o List.mem_cons_self)]
    exact matchEntry_append hm (fun p hp => h p (List.mem_cons_of_mem o hp))

theorem matchEntry_eq_none {ack : Word16} : ∀ {l : List OutEntry}, (∀ o ∈ l, o.seq ≠ ack) → matchEntry ack l = none
  | [], _ => rfl
  | o :: l, h => by
    rw [matchEntry, if_neg (h o List.mem_cons_self)]
    exact matchEntry_eq_none (fun p hp => h p (List.mem_cons_of_mem o hp))

theorem matchEntry_eq_dropWhile (ack : Word16) : ∀ l : List OutEntry, matchEntry ack l =
    match l.dropWhile (fun o => o.seq ≠ ack) with
    | [] => none
    | m :: newer => some (m, newer)
  | [] => rfl
  | o :: l => by
    by_cases h : o.seq = ack
    · simp [matchEntry, h]
    · rw [matchEntry, if_neg h, matchEntry_eq_dropWhile ack l]
      simp [h]

/-! ## The steps of the checks (R119 to R129) -/

theorem stepFaults_eq (r : FeedbackRecord) (m : OutEntry) (b : AxisBody) (c : AxisCtx) :
    stepFaults r m b c = findings r m b c := by
  simp only [stepFaults, findings, driveFaults, brakeFaults, positionFaults, statusOf, reported, AxisBody.inLimits, within,
    List.append_assoc, decide_eq_true_eq]
  rfl

theorem loadOf_eq (l : LoadSection) (raw : Int) : loadOf l raw = rawToLoad l raw := by
  simp only [loadOf, rawToLoad, bounded]
  omega

theorem filteredOf_eq (l : LoadSection) (ring : List Int) : filteredOf l.filterLen ring = average l ring := by
  simp [filteredOf, average]

/-- The load recorded and the overload check, as the meaning makes them. -/
theorem loadTaken_eq (x : Axis) (l : LoadSection) (raw : Int) (s : State) :
    takeFaults x (overloadFaults l raw) (setCtx x ((ctxOf s x).takeLoad l (loadOf l raw)) s) = loadTaken x l raw s := by
  simp only [overloadFaults, loadTaken, AxisCtx.takeLoad, loadOf_eq, filteredOf_eq, takeFaults, Config.ringRoom]
  split <;> rfl

/-! ## Faults one after another (R31) -/

/-- Faults taken for a configured axis leave it FAULTED, unless there are none. -/
theorem takeFaults_state (x : Axis) (fs : List AxisFault) : ∀ (s : State), (ctxOf s x).state ≠ .unconfigured →
    (ctxOf (takeFaults x fs s) x).state = if fs = [] then (ctxOf s x).state else .faulted := by
  induction fs with
  | nil => intro s _; rfl
  | cons f fs ih =>
    intro s h
    have hf : (ctxOf (takeFault x f s) x).state = .faulted := by rw [ctxOf_takeFault_same]; exact takeFault_faulted f _ h
    have : takeFaults x (f :: fs) s = takeFaults x fs (takeFault x f s) := rfl
    rw [this, ih _ (by rw [hf]; simp), hf]
    simp

theorem takeFaults_pos (x : Axis) (fs : List AxisFault) :
    ∀ (s : State), (ctxOf (takeFaults x fs s) x).pos = (ctxOf s x).pos := by
  induction fs with
  | nil => intro s; rfl
  | cons f fs ih =>
    intro s
    have : takeFaults x (f :: fs) s = takeFaults x fs (takeFault x f s) := rfl
    rw [this, ih, ctxOf_takeFault_same]
    unfold AxisCtx.takeFault
    split <;> rfl

theorem loadTaken_state (x : Axis) (l : LoadSection) (raw : Int) (s : State) (h : (ctxOf s x).state ≠ .unconfigured) :
    (ctxOf (loadTaken x l raw s) x).state = if l.overload < rawToLoad l raw then .faulted else (ctxOf s x).state := by
  rw [← loadTaken_eq, takeFaults_state _ _ _ (by simpa [AxisCtx.takeLoad] using h), overloadFaults, loadOf_eq]
  split <;> simp [AxisCtx.takeLoad]

/-- A tare that a fault leaves in flight was in flight before it (R136). -/
theorem takeFault_tare (x : Axis) (f : AxisFault) (s : State) (t : Tare) (h : (takeFault x f s).tare = some t) :
    s.tare = some t := by
  unfold takeFault informTare at h
  split at h
  · simp_all
  · split at h
    · simpa using h
    · rename_i h1 _
      unfold abortTare at h
      rw [h1] at h
      simp at h

theorem takeFaults_tare (x : Axis) (fs : List AxisFault) :
    ∀ (s : State) (t : Tare), (takeFaults x fs s).tare = some t → s.tare = some t := by
  induction fs with
  | nil => intro s t h; exact h
  | cons f fs ih => intro s t h; exact takeFault_tare x f s t (ih _ t h)

/-! ## The five steps as one (R119) -/

theorem learnPosition_eq (x : Axis) (r : FeedbackRecord) (t : State) :
    learnPosition x r.actual.toInt t = positionLearned x r t := by
  unfold learnPosition positionLearned
  split <;> rfl

theorem positionLearned_of_ne {x : Axis} {r : FeedbackRecord} {t : State} (h : (ctxOf t x).state ≠ .locating) :
    positionLearned x r t = t := if_neg h

theorem positionLearned_state {x : Axis} {r : FeedbackRecord} {t : State} (h : (ctxOf t x).state = .locating) :
    (ctxOf (positionLearned x r t) x).state = .parked := by
  rw [positionLearned, if_pos h]
  exact congrArg AxisCtx.state (ctxOf_setCtx_same x _ t)

/-- The checks of a record: steps 1 to 4, then step 5 for an axis with a load section. -/
theorem checkRecord_eq (x : Axis) (r : FeedbackRecord) (m : OutEntry) (b : AxisBody) (found : AxisCtx) (t : State) :
    checkRecord x r m b found t = match b.load with
      | none => positionLearned x r (stepsTaken x r m b found t)
      | some l => checkLoad x l r.rawLoad.toInt found (positionLearned x r (stepsTaken x r m b found t)) := by
  simp only [checkRecord, stepFaults_eq, learnPosition_eq]
  cases b.load <;> rfl

/-- Step 5 of a record that found its axis LOCATING (R129). -/
theorem checkLoad_locating {x : Axis} {l : LoadSection} {raw : Int} {found : AxisCtx} {s : State} (h : found.state = .locating)
    (hs : (ctxOf s x).state ≠ .unconfigured) : checkLoad x l raw found s = loadTakenLocating x l raw s := by
  simp only [checkLoad, loadTaken_eq, h, loadTakenLocating]
  by_cases hp : (ctxOf s x).state = .parked
  · simp only [hp, true_and]
    rw [loadTaken_state _ _ _ _ hs, hp]
    by_cases ho : l.overload < rawToLoad l raw <;> simp [ho]
  · simp [hp]

/-- Step 5 of a record that has faulted its axis, or that found it neither TRACKING nor PARKED under tare: the load is taken, and
nothing more is judged (R129, R134). -/
theorem checkLoad_taken {x : Axis} {l : LoadSection} {raw : Int} {found : AxisCtx} {s : State} (h : found.state ≠ .locating)
    (hd : (ctxOf (loadTaken x l raw s) x).state = .faulted ∨ (found.state ≠ .tracking ∧
      ¬ (found.state = .parked ∧ ∃ t, (loadTaken x l raw s).tare = some t ∧ t.axis = x))) :
    checkLoad x l raw found s = loadTaken x l raw s := by
  simp only [checkLoad, loadTaken_eq]
  split
  · rename_i e
    have hf := hd.resolve_right (fun q => q.1 e)
    simp [slackSnag, hf]
  · rename_i e
    unfold tareSample
    split
    · rfl
    · rename_i t ht
      rcases hd with hf | hn
      · simp [hf]
      · have : t.axis ≠ x := fun ea => hn.2 ⟨e, t, ht, ea⟩
        simp [this]
  · rename_i e
    exact absurd e h
  · rfl

/-! ## The record (R112, R113, R117) -/

/-- The one way in which a record reaches the judgement of its axis (R112, R113). -/
theorem exec_feedbackRecord {s : State} {r : FeedbackRecord} {rest : List FeedbackRecord} {more : List (List FeedbackRecord)}
    {x : Axis} (hf : s.fb.frames = (r :: rest) :: more) (hx : r.axis.toNat = x.val) (hc : (ctxOf s x).state ≠ .unconfigured)
    (ht : x ∉ s.fb.taken) :
    exec .feedbackRecord s = .next
      { judgeRecord x r { s with fb := { frames := rest :: more, taken := x :: s.fb.taken } } with
        fb := monitorAfter (x :: s.fb.taken) rest more } := by
  have hi : toIndex 128 r.axis.toNat = some x := by rw [toIndex_eq_some]; exact hx.symm
  have hc' : (ctxOf { s with fb := { s.fb with frames := rest :: more } } x).state ≠ .unconfigured := hc
  simp only [exec, execFeedbackRecord, hf, takeFeedbackRecord, hi, if_neg hc']
  have ht' : (s.fb.taken.contains x) = false := by simpa using ht
  simp only [ht']
  simp [FeedbackMonitor.settleFrame, monitorAfter]
  cases rest <;> simp

/-- A matched record of an axis that is not FAULTED is checked in the context that it finds (R119). -/
theorem exec_feedbackRecord_checked {s : State} {r : FeedbackRecord} {rest : List FeedbackRecord}
    {more : List (List FeedbackRecord)} {x : Axis} {older newer : List OutEntry} {m : OutEntry} {b : AxisBody}
    (h : MatchesEntry s r rest more x older m newer) (hs : (ctxOf s x).state ≠ .faulted) (hb : bodyOf s x = some b) :
    exec .feedbackRecord s = .next (recordDone x (x :: s.fb.taken) rest more
      (checkRecord x r m b (ctxOf s x) (recordMatched x r rest more newer s))) := by
  rw [exec_feedbackRecord h.frames h.axis h.configured h.fresh]
  have hj : foundBefore .engine x { s with fb := { frames := rest :: more, taken := x :: s.fb.taken } } = none :=
    foundBefore_not_faulted hs
  have hs' : ¬ (ctxOf { s with fb := { frames := rest :: more, taken := x :: s.fb.taken } } x).state = .faulted := hs
  have hb' : bodyOf { s with fb := { frames := rest :: more, taken := x :: s.fb.taken } } x = some b := hb
  have hl : (ctxOf { s with fb := { frames := rest :: more, taken := x :: s.fb.taken } } x).outstanding = older ++ m :: newer :=
    h.list
  rw [judgeRecord, hj]
  simp only [matchRecord, hl, matchEntry_append h.ack h.first, if_neg hs', hb', recordMatched]
  generalize noteJudged .monitor x { s with fb := { frames := rest :: more, taken := x :: s.fb.taken } } = t
  rfl

/-- The five steps of a record judged together with the append that has faulted its axis (R31). -/
theorem faultsFoundIn_eq {s : State} {r : FeedbackRecord} {rest : List FeedbackRecord} {more : List (List FeedbackRecord)}
    {x : Axis} {older newer : List OutEntry} {m : OutEntry} {b : AxisBody} {found : AxisCtx}
    (hl : found.outstanding = older ++ m :: newer) (hm : m.seq = r.ack) (ho : ∀ o ∈ older, o.seq ≠ r.ack)
    (hb : bodyOf s x = some b) (hf : findsFault r m b found = true) :
    (faultsFoundIn found x r { s with fb := { frames := rest :: more, taken := x :: s.fb.taken } }).map (fun t =>
        { t with fb := monitorAfter (x :: s.fb.taken) rest more }) =
      some (recordDone x (x :: s.fb.taken) rest more
        (checkRecord x r m b found (recordMatched x r rest more (ctxOf s x).outstanding s))) := by
  have hb' : bodyOf { s with fb := { frames := rest :: more, taken := x :: s.fb.taken } } x = some b := hb
  simp only [faultsFoundIn, hb', hl, matchEntry_append hm ho, hf, if_true, Option.map_some, recordMatched]
  generalize noteJudged .monitor x { s with fb := { frames := rest :: more, taken := x :: s.fb.taken } } = t
  rfl

/-- A record of a FAULTED axis matched as its list stands (R125). -/
theorem judgedAsStanding_eq {s : State} {r : FeedbackRecord} {rest : List FeedbackRecord} {more : List (List FeedbackRecord)}
    {x : Axis} (hs : (ctxOf s x).state = .faulted) :
    { matchRecord x r { s with fb := { frames := rest :: more, taken := x :: s.fb.taken } } with
      fb := monitorAfter (x :: s.fb.taken) rest more } = judgedAsStanding x r rest more s := by
  have hl : ctxOf { s with fb := { frames := rest :: more, taken := x :: s.fb.taken } } x = ctxOf s x := rfl
  simp only [matchRecord, hl, matchEntry_eq_dropWhile, if_pos hs, judgedAsStanding, recordMatched]
  generalize noteJudged .monitor x { s with fb := { frames := rest :: more, taken := x :: s.fb.taken } } = t
  cases List.dropWhile (fun o => decide (o.seq ≠ r.ack)) (ctxOf s x).outstanding <;> rfl

end Sys2Proof.Machine
end

