-- ==== Sys2Proof/Laws/Operands.lean ====
section
/-! SUPPORT. Words and operands: fields read back from their bytes, and what it takes for range checks to find nothing. -/

namespace Sys2Proof.Machine

/-! ## Fields and their bytes (section 10.6) -/

@[simp] theorem word16_bytes (w : Word16) : word16 (w.extractLsb' 8 8) (w.extractLsb' 0 8) = w := by
  apply BitVec.eq_of_getLsbD_eq
  intro i hi
  simp only [word16, BitVec.getLsbD_append, BitVec.getLsbD_extractLsb']
  split <;> rename_i h
  · simp [h]
  · have : i - 8 < 8 := by omega
    simp [this, show 8 + (i - 8) = i by omega]

@[simp] theorem word32_bytes (w : Word32) :
    word32 (w.extractLsb' 24 8) (w.extractLsb' 16 8) (w.extractLsb' 8 8) (w.extractLsb' 0 8) = w := by
  apply BitVec.eq_of_getLsbD_eq
  intro i hi
  simp only [word32, BitVec.getLsbD_append, BitVec.getLsbD_extractLsb']
  by_cases h1 : i < 8
  · simp [h1]
  · by_cases h2 : i < 16
    · simp [h1, show i - 8 < 8 by omega, show 8 + (i - 8) = i by omega]
    · by_cases h3 : i < 24
      · simp [h1, show ¬ i - 8 < 8 by omega, show i - 8 - 8 < 8 by omega, show 16 + (i - 8 - 8) = i by omega]
      · simp [h1, show ¬ i - 8 < 8 by omega, show ¬ i - 8 - 8 < 8 by omega, show i - 8 - 8 - 8 < 8 by omega,
          show 24 + (i - 8 - 8 - 8) = i by omega]

theorem bytes16_eq (w : Word16) : bytes16 w = [w.extractLsb' 8 8, w.extractLsb' 0 8] := rfl

@[simp] theorem bytes16_length (w : Word16) : (bytes16 w).length = 2 := rfl

@[simp] theorem bytes32_length (w : Word32) : (bytes32 w).length = 4 := rfl

/-! ## Range checks (R11, R68, R91, R172) -/

theorem within_iff (lo hi x : Int) : within lo hi x = true ↔ lo ≤ x ∧ x ≤ hi := by simp [within]

/-- The checks find nothing just when each of them passes. -/
theorem firstBad_eq_none (checks : List (Nat × Bool)) : firstBad checks = none ↔ ∀ c ∈ checks, c.2 = true := by
  simp [firstBad, List.find?_eq_none]

/-- A body whose checks pass is taken; otherwise the first field that fails is named. -/
theorem checkedBody_cases {α : Type} (checks : List (Nat × Bool)) (body : Option α) :
    (∃ b, firstBad checks = none ∧ body = some b ∧ checkedBody checks body = .ok b) ∨
    ∃ f, (firstBad checks = some f ∨ firstBad checks = none ∧ body = none ∧ f = 0) ∧ checkedBody checks body = .error f := by
  unfold checkedBody
  cases firstBad checks <;> cases body <;> simp

end Sys2Proof.Machine
end

