-- ==== Sys2Proof/Laws/Layout.lean ====
section
/-! SUPPORT. Layouts: what fields a piece of bytes spells (sections 10.6 to 10.10). -/

namespace Sys2Proof.Machine

/-! ## The value of a field -/

theorem valueOf_foldl (bs : List Byte) :
    ∀ n, bs.foldl (fun n b => 256 * n + b.toNat) n = 256 ^ bs.length * n + valueOf bs := by
  induction bs with
  | nil => intro n; simp [valueOf]
  | cons b bs ih =>
    intro n
    simp only [List.foldl_cons, valueOf, List.length_cons]
    rw [ih, ih (256 * 0 + b.toNat)]
    ring

theorem valueOf_append (a b : List Byte) : valueOf (a ++ b) = 256 ^ b.length * valueOf a + valueOf b := by
  rw [valueOf, List.foldl_append, valueOf_foldl]
  rfl

@[simp] theorem valueOf_bytes16 (w : Word16) : valueOf (bytes16 w) = w.toNat := by
  have := w.isLt
  simp [valueOf, bytes16, BitVec.extractLsb'_toNat, Nat.shiftRight_eq_div_pow]
  omega

@[simp] theorem valueOf_bytes32 (w : Word32) : valueOf (bytes32 w) = w.toNat := by
  have := w.isLt
  simp [valueOf, bytes32, BitVec.extractLsb'_toNat, Nat.shiftRight_eq_div_pow]
  omega

/-! ## Bytes that spell fields -/

theorem Spells.append {a b : List Byte} {fa fb : List (Nat × Int)} (ha : Spells a fa) (hb : Spells b fb) :
    Spells (a ++ b) (fa ++ fb) := by
  induction fa generalizing a with
  | nil =>
    have : a = [] := ha
    rw [this]
    exact hb
  | cons f fs ih =>
    obtain ⟨h1, h2, h3⟩ := ha
    refine ⟨by rw [List.length_append]; omega, ?_, ?_⟩
    · rw [List.take_append_of_le_length h1]
      exact h2
    · rw [List.drop_append_of_le_length h1]
      exact ih h3

theorem spells_one {a : List Byte} {width : Nat} {v : Int} (h1 : a.length = width)
    (h2 : (valueOf a : Int) = v % 256 ^ width) : Spells a [(width, v)] := by
  subst h1
  refine ⟨le_rfl, ?_, ?_⟩
  · rw [List.take_length]
    exact h2
  · rw [List.drop_length]
    rfl

theorem spells_byte (b : Byte) : Spells [b] [(1, (b.toNat : Int))] := by
  refine spells_one rfl ?_
  have := b.isLt
  simp [valueOf]
  omega

theorem spells_byteOf (n : Nat) : Spells [byteOf n] [(1, (n : Int))] := by
  refine spells_one rfl ?_
  simp [valueOf, byteOf]

theorem spells_bytes16 (w : Word16) : Spells (bytes16 w) [(2, (w.toNat : Int))] := by
  refine spells_one rfl ?_
  rw [valueOf_bytes16]
  have := w.isLt
  omega

theorem spells_nat16 (n : Nat) : Spells (nat16 n) [(2, (n : Int))] := by
  refine spells_one rfl ?_
  rw [nat16, valueOf_bytes16]
  simp

theorem spells_int16 (v : Int) : Spells (int16 v) [(2, v)] := by
  refine spells_one rfl ?_
  rw [int16, valueOf_bytes16, BitVec.toNat_ofInt]
  omega

theorem spells_int32 (v : Int) : Spells (int32 v) [(4, v)] := by
  refine spells_one rfl ?_
  rw [int32, valueOf_bytes32, BitVec.toNat_ofInt]
  omega

theorem spells_bytes32 (w : Word32) : Spells (bytes32 w) [(4, (w.toNat : Int))] := by
  refine spells_one rfl ?_
  rw [valueOf_bytes32]
  have := w.isLt
  omega

theorem spells_flatMap {α : Type} (l : List α) (bytes : α → List Byte) (fields : α → List (Nat × Int))
    (h : ∀ a, Spells (bytes a) (fields a)) : Spells (l.flatMap bytes) (l.flatMap fields) := by
  induction l with
  | nil => rfl
  | cons a l ih => exact (h a).append ih

/-- Bytes that spell fields are as many as the fields take. -/
theorem Spells.length {fields : List (Nat × Int)} : ∀ {bs : List Byte}, Spells bs fields → bs.length = widthOf fields := by
  induction fields with
  | nil =>
    intro bs h
    have : bs = [] := h
    rw [this]
    rfl
  | cons f fs ih =>
    intro bs h
    have := ih h.2.2
    have := h.1
    simp only [widthOf, List.map_cons, List.sum_cons, List.length_drop] at *
    omega

/-! ## Frames -/

/-- A frame is made as section 10.6 lays it out. -/
theorem isFrame_frameBytes (kind : Byte) (h : Header) (count : Nat) (body : List Byte) :
    IsFrame (frameBytes kind h count body) kind.toNat h.dest.toNat h.source.toNat h.flags.toNat h.seq.toNat count body := by
  refine ⟨headerBytes kind h count body.length, bytes32 (crc32 (headerBytes kind h count body.length ++ body)), rfl, ?_,
    spells_bytes32 _⟩
  exact (spells_byte kind).append <| (spells_byte h.dest).append <| (spells_byte h.source).append <|
    (spells_byte h.flags).append <| (spells_bytes16 h.seq).append <| (spells_nat16 _).append (spells_nat16 _)

end Sys2Proof.Machine
end

