-- ==== Sys2Proof/Laws/Motion.lean ====
section
/-! SUPPORT. The numbers of screening: magnitudes, the stopping distance, the ramp step, the clamps and the projection. -/

namespace Sys2Proof.Machine

/-! ## Magnitude and sign -/

theorem mag_nonneg (x : Int) : 0 ≤ mag x := by unfold mag; split <;> omega

@[simp] theorem mag_zero : mag 0 = 0 := rfl

@[simp] theorem sgn_zero : sgn 0 = 0 := rfl

theorem mag_of_nonneg {x : Int} (h : 0 ≤ x) : mag x = x := by unfold mag; split <;> omega

theorem mag_of_neg {x : Int} (h : x < 0) : mag x = -x := by simp [mag, h]

theorem sgn_of_pos {x : Int} (h : 0 < x) : sgn x = 1 := by unfold sgn; split <;> [omega; split <;> omega]

theorem sgn_of_neg {x : Int} (h : x < 0) : sgn x = -1 := by simp [sgn, h]

/-! ## Stopping distance (R59) -/

/-- Below the stopping deceleration the distance is 0. -/
theorem dStop_small {S v : Int} (h0 : 0 ≤ v) (h : v < S) : dStop S v = 0 := by
  have hq : v / S = 0 := Int.ediv_eq_zero_of_lt h0 h
  simp [dStop, hq]

@[simp] theorem dStop_zero (S : Int) : dStop S 0 = 0 := by simp [dStop]

/-- The product of two neighbours is even, so the halving of R59 is exact. -/
theorem half_neighbours (q : Int) : 2 * (q * (q + 1) / 2) = q * (q + 1) :=
  Int.mul_ediv_cancel' (Int.even_mul_succ_self q).two_dvd

/-- The stopping distance takes off its first ramp step (R59). -/
theorem dStop_step {S v : Int} (hS : 0 < S) : dStop S v = (v - S) + dStop S (v - S) := by
  have hq : (v - S) / S = v / S - 1 := by
    have := Int.add_mul_ediv_right v (-1) (ne_of_gt hS)
    have e : v + -1 * S = v - S := by ring
    rw [e] at this
    omega
  simp only [dStop, hq]
  generalize v / S = q
  have h1 := half_neighbours q
  have h2 := half_neighbours (q - 1)
  have e1 : q * (q + 1) / 2 = q * (q - 1) / 2 + q := by
    have e : (q - 1) * (q - 1 + 1) = q * (q - 1) := by ring
    rw [e] at h2
    have e3 : q * (q + 1) = q * (q - 1) + 2 * q := by ring
    linarith
  have e2 : (q - 1) * (q - 1 + 1) = q * (q - 1) := by ring
  rw [e1, e2]
  ring

/-- The stopping distance is never negative. -/
theorem dStop_nonneg {S v : Int} (hS : 0 < S) (h0 : 0 ≤ v) : 0 ≤ dStop S v := by
  obtain ⟨n, hn⟩ : ∃ n : Nat, v < n := ⟨v.toNat + 1, by omega⟩
  induction n generalizing v with
  | zero => omega
  | succ n ih =>
    by_cases h : v < S
    · simp [dStop_small h0 h]
    · rw [dStop_step hS]
      have := ih (v := v - S) (by omega) (by omega)
      omega

/-! ## The ramp step (R60) -/

theorem rampStep_of_pos {S v : Int} (h : 0 < v) : rampStep S v = max 0 (v - S) := by
  simp [rampStep, sgn_of_pos h, mag_of_nonneg h.le]

theorem rampStep_of_neg {S v : Int} (h : v < 0) : rampStep S v = -max 0 (-v - S) := by
  simp [rampStep, sgn_of_neg h, mag_of_neg h]

@[simp] theorem rampStep_zero (S : Int) : rampStep S 0 = 0 := by simp [rampStep]

/-- One ramp step leaves the projected stopping position unchanged (R60). -/
theorem projection_ramp {S : Int} (hS : 0 < S) (p v : Int) :
    projection S ⟨p + rampStep S v, rampStep S v⟩ = projection S ⟨p, v⟩ := by
  rcases lt_trichotomy v 0 with h | h | h
  · rw [rampStep_of_neg h]
    by_cases hs : -v < S
    · have e : max 0 (-v - S) = 0 := by omega
      simp [projection, e, sgn_of_neg h, mag_of_neg h, dStop_small (by omega : 0 ≤ -v) hs]
    · by_cases h0 : -v = S
      · simp [projection, h0, sgn_of_neg h, mag_of_neg h, dStop_step (v := S) hS]
      · have e : max 0 (-v - S) = -v - S := by omega
        have hn : -(-v - S) < 0 := by omega
        simp only [projection, e, sgn_of_neg h, sgn_of_neg hn, mag_of_neg h, mag_of_neg hn]
        rw [dStop_step (v := -v) hS]
        simp only [neg_neg]
        ring
  · subst h
    simp
  · rw [rampStep_of_pos h]
    by_cases hs : v < S
    · have e : max 0 (v - S) = 0 := by omega
      simp [projection, e, mag_of_nonneg h.le, dStop_small h.le hs]
    · by_cases h0 : v = S
      · subst h0
        simp [projection, mag_of_nonneg h.le, dStop_step (v := v) hS]
      · have e : max 0 (v - S) = v - S := by omega
        have hp : 0 < v - S := by omega
        simp only [projection, e, sgn_of_pos h, sgn_of_pos hp, mag_of_nonneg h.le, mag_of_nonneg hp.le]
        rw [dStop_step (v := v) hS]
        ring

/-- A ramp step changes the step by at most the stopping deceleration. -/
theorem rampStep_change {S : Int} (hS : 0 < S) (v : Int) : mag (rampStep S v - v) ≤ S := by
  rcases lt_trichotomy v 0 with h | h | h
  · rw [rampStep_of_neg h]; unfold mag; split <;> omega
  · subst h; simp [hS.le]
  · rw [rampStep_of_pos h]; unfold mag; split <;> omega

/-- A ramp step is no greater in magnitude than the step it came from. -/
theorem mag_rampStep {S : Int} (hS : 0 < S) (v : Int) : mag (rampStep S v) ≤ mag v := by
  rcases lt_trichotomy v 0 with h | h | h
  · rw [rampStep_of_neg h, mag_of_neg h]; unfold mag; split <;> omega
  · subst h; simp
  · rw [rampStep_of_pos h, mag_of_nonneg h.le]; unfold mag; split <;> omega

/-! ## The clamps (R48, R50) -/

theorem accelClamp_range {A v d : Int} (hA : 0 ≤ A) : v - A ≤ accelClamp A v d ∧ accelClamp A v d ≤ v + A := by
  unfold accelClamp bounded
  split <;> [omega; split <;> omega]

/-- A capped step never exceeds the greater of the cap and the step before it. -/
theorem mag_speedCap {S cap v d : Int} (hS : 0 < S) (hc : 0 ≤ cap) : mag (speedCap S cap v d) ≤ max cap (mag v) := by
  unfold speedCap
  have h1 := mag_nonneg v
  split
  · omega
  · have hs : ∀ m : Int, 0 ≤ m → mag (sgn d * m) ≤ m := by
      intro m hm
      unfold sgn
      split
      · unfold mag; split <;> omega
      · split
        · simp [hm]
        · unfold mag; split <;> omega
    split
    · have := hs (max cap (mag v - S)) (by omega); omega
    · have := hs cap hc; omega

/-- A candidate's step differs from the step before it by at most the stopping deceleration (R60). -/
theorem speedCap_change {A S cap v d : Int} (hA : 0 ≤ A) (hAS : A ≤ S) (hS : 0 < S) (hc : 0 ≤ cap) :
    mag (speedCap S cap v (accelClamp A v d) - v) ≤ S := by
  have hr := accelClamp_range (v := v) (d := d) hA
  generalize accelClamp A v d = a at hr ⊢
  unfold speedCap
  split
  · unfold mag at *; split <;> omega
  · rename_i hcap
    rcases lt_trichotomy a 0 with ha | ha | ha
    · rw [sgn_of_neg ha]
      rw [mag_of_neg ha] at hcap
      split
      · rename_i h
        have hv : v < 0 := by
          by_contra hv
          have := h.1
          unfold sgn at this
          split at this <;> [omega; split at this <;> omega]
        rw [mag_of_neg hv] at h ⊢
        unfold mag; split <;> omega
      · rename_i h
        have hv : ¬ (v < 0 ∧ cap < -v) := by
          rintro ⟨hv, hv2⟩
          exact h ⟨by rw [sgn_of_neg hv], by rw [mag_of_neg hv]; exact hv2⟩
        unfold mag; split <;> omega
    · subst ha; simp at hcap; omega
    · rw [sgn_of_pos ha]
      rw [mag_of_nonneg ha.le] at hcap
      split
      · rename_i h
        have hv : 0 < v := by
          by_contra hv
          have := h.1
          unfold sgn at this
          split at this <;> [omega; split at this <;> omega]
        rw [mag_of_nonneg hv.le] at h ⊢
        unfold mag; split <;> omega
      · rename_i h
        have hv : ¬ (0 < v ∧ cap < v) := by
          rintro ⟨hv, hv2⟩
          exact h ⟨by rw [sgn_of_pos hv], by rw [mag_of_nonneg hv.le]; exact hv2⟩
        unfold mag; split <;> omega

end Sys2Proof.Machine
end

