-- ==== Sys2Proof/Laws/Raised.lean ====
section
/-! SUPPORT. Every operation below changes the event unit by raising events, and in no other way (R175). -/

namespace Sys2Proof.Machine

theorem settleLine_raised (l : Line) (s : State) : s.ev.Raised (settleLine l s).ev := by
  unfold settleLine
  dsimp only
  split
  · exact .refl _
  · exact raise_raised _ _

theorem settleIfDue_raised (l : Line) (s : State) : s.ev.Raised (settleIfDue l s).ev := by
  unfold settleIfDue
  split
  · exact settleLine_raised l s
  · exact .refl _

theorem settleAllDue_raised (s : State) : s.ev.Raised (settleAllDue s).ev := by
  unfold settleAllDue
  induction allLines generalizing s with
  | nil => exact .refl _
  | cons l ls ih => exact (settleIfDue_raised l s).trans (ih (settleIfDue l s))

theorem abortTare_raised (r : TareAbort) (s : State) : s.ev.Raised (abortTare r s).ev := by
  unfold abortTare
  split
  · exact .refl _
  · exact raise_raised _ _

theorem informTare_raised (s : State) : s.ev.Raised (informTare s).ev := by
  unfold informTare
  split
  · exact .refl _
  · split
    · exact .refl _
    · exact abortTare_raised _ _

theorem stopBetween_raised (a : Axis) (k : StopCause) (s : State) : s.ev.Raised (stopBetween a k s).ev := by
  unfold stopBetween
  dsimp only
  split
  · exact raise_raised _ (setCtx a _ s)
  · exact .refl _

theorem takeFault_raised (a : Axis) (f : AxisFault) (s : State) : s.ev.Raised (takeFault a f s).ev := by
  unfold takeFault
  exact (raiseAll_raised _ (setCtx a _ s)).trans (informTare_raised _)

theorem takeFaults_raised (a : Axis) (fs : List AxisFault) (s : State) : s.ev.Raised (takeFaults a fs s).ev := by
  unfold takeFaults
  induction fs generalizing s with
  | nil => exact .refl _
  | cons f fs ih => exact (takeFault_raised a f s).trans (ih (takeFault a f s))

theorem handManage_raised (f : ManageFrame) (s : State) : s.ev.Raised (handManage f s).ev := by
  unfold handManage
  split
  · exact .refl _
  · split
    · exact .refl _
    · exact raise_raised _ _

theorem refuseProtected_raised (e : Envelope) (t : TableCode) (n : Nat) (s : State) :
    s.ev.Raised (refuseProtected e t n s).ev := raise_raised _ _

/-! ## Screening -/

theorem warnPairs_raised (x : Axis) (b : AxisBody) (p q : Motion) (s : State) :
    s.ev.Raised (warnPairs x b p q s).ev := by
  unfold warnPairs
  generalize tmap _ s.pairTab = v
  exact raiseAll_raised _ { s with pairTab := v }

theorem stopInScreening_raised (x : Axis) (b : AxisBody) (k : StopCause) (c : AxisCtx) (s : State) :
    s.ev.Raised (stopInScreening x b k c s).ev := raise_raised _ (setCtx x _ s)

theorem passCandidate_raised (x : Axis) (b : AxisBody) (p q : Motion) (r : Int) (c : AxisCtx) (s : State) :
    s.ev.Raised (passCandidate x b p q r c s).ev := by
  unfold passCandidate
  dsimp only
  split
  · simp only [raise_ev, setCtx_ev]
    exact (warnPairs_raised x b p q s).trans (.one _ _)
  · simp only [setCtx_ev]
    exact warnPairs_raised x b p q s

theorem screenTracking_raised (x : Axis) (b : AxisBody) (p r : Int) (c : AxisCtx) (s : State) :
    s.ev.Raised (screenTracking x b p r c s).ev := by
  unfold screenTracking
  dsimp only
  split
  · exact passCandidate_raised ..
  · exact stopInScreening_raised ..

theorem screenHeld_raised (x : Axis) (b : AxisBody) (p r : Int) (c : AxisCtx) (s : State) :
    s.ev.Raised (screenHeld x b p r c s).ev := by
  unfold screenHeld
  dsimp only
  split
  · split
    · exact passCandidate_raised ..
    · exact .refl _
  · exact .refl _

theorem screenAxis_raised (x : Axis) (r : Option Int) (y : Bool) (s : State) :
    s.ev.Raised (screenAxis x r y s).ev := by
  unfold screenAxis
  dsimp only
  split
  · exact .refl _
  · split
    · exact screenHeld_raised ..
    · exact .refl _
  · split
    · exact screenTracking_raised ..
    · exact stopInScreening_raised ..
  · exact .refl _
  · exact .refl _

theorem takeConsoleRecord_raised (r : ConsoleRecord) (e : Screening) (s : State) :
    s.ev.Raised (takeConsoleRecord r e s).ev := by
  unfold takeConsoleRecord
  split
  · exact raise_raised _ { s with engine := some e }
  · split
    · exact raise_raised _ { s with engine := some e }
    · split
      · exact raise_raised _ { s with engine := some e }
      · exact screenAxis_raised ..

theorem overflow_raised (q : Word16) (x : Axis) (c : AxisCtx) (s : State) : s.ev.Raised (overflow q x c s).1.ev :=
  takeFault_raised x (overflowFault c) s

theorem appendRecord_raised (q : Word16) (r : DownRecord) (s : State) : s.ev.Raised (appendRecord q r s).1.ev := by
  unfold appendRecord
  dsimp only
  split
  · exact .refl _
  · split
    · exact .refl _
    · split
      · exact .refl _
      · exact overflow_raised _ _ _ (noteJudged .engine r.axis s)

theorem judgeAppend_raised (q : Word16) (r : DownRecord) (s : State) : s.ev.Raised (judgeAppend q r s).1.ev := by
  unfold judgeAppend
  split
  · exact appendRecord_raised ..
  · split
    · exact overflow_raised _ _ _ (noteJudged .engine r.axis (chosen s))
    · exact appendRecord_raised _ _ (chosen s)

/-! ## Cycle supervision -/

theorem resumeConsole_raised (q : Word16) (s : State) : s.ev.Raised (resumeConsole q s).ev := by
  unfold resumeConsole
  split
  · exact raise_raised _ { s with cyc := _ }
  · exact .refl _

theorem acceptFrame_raised (f : SetpointFrame) (g : Option Word16) (s : State) :
    s.ev.Raised (acceptFrame f g s).ev := by
  unfold acceptFrame
  dsimp only
  have h := resumeConsole_raised f.hdr.seq { s with cyc := { s.cyc with conSeq := some f.hdr.seq } }
  split
  · exact h.trans (raise_raised _ _)
  · exact h

theorem judgeSequence_raised (f : SetpointFrame) (s : State) : s.ev.Raised (judgeSequence f s).ev := by
  unfold judgeSequence
  dsimp only
  split
  · exact acceptFrame_raised ..
  · split
    · exact acceptFrame_raised ..
    · split
      · exact acceptFrame_raised ..
      · exact raise_raised _ _

theorem judgeConsoleFrame_raised (f : SetpointFrame) (s : State) : s.ev.Raised (judgeConsoleFrame f s).ev := by
  unfold judgeConsoleFrame
  split
  · exact .refl _
  · exact acceptFrame_raised ..
  · split
    · exact judgeSequence_raised ..
    · exact raise_raised _ _
  · exact raise_raised _ _

theorem synthesise_raised (s : State) : s.ev.Raised (synthesise s).ev := by
  unfold synthesise startScreening
  dsimp only
  split
  · exact raise_raised _ { s with cyc := _ }
  · exact .refl _

/-! ## Feedback -/

theorem slackSnag_raised (x : Axis) (l : LoadSection) (v : Int) (s : State) : s.ev.Raised (slackSnag x l v s).ev := by
  unfold slackSnag
  dsimp only
  split
  · split
    · exact stopBetween_raised ..
    · split
      · exact stopBetween_raised _ _ (setCtx x _ s)
      · exact .refl _
  · exact .refl _

theorem completeTare_raised (x : Axis) (n : Int) (s : State) : s.ev.Raised (completeTare x n s).ev :=
  raise_raised _ (setCtx x _ { s with axisTab := _, tare := none })

theorem tareSample_raised (x : Axis) (n : Int) (s : State) : s.ev.Raised (tareSample x n s).ev := by
  unfold tareSample
  split
  · exact .refl _
  · split
    · split
      · exact .refl _
      · exact completeTare_raised ..
    · exact .refl _

theorem checkLoad_raised (x : Axis) (l : LoadSection) (n : Int) (c : AxisCtx) (s : State) :
    s.ev.Raised (checkLoad x l n c s).ev := by
  unfold checkLoad
  dsimp only
  have h := takeFaults_raised x (overloadFaults l n) (setCtx x ((ctxOf s x).takeLoad l (loadOf l n)) s)
  split
  · exact h.trans (slackSnag_raised ..)
  · exact h.trans (tareSample_raised ..)
  · split
    · exact h
    · exact h
  · exact h

theorem learnPosition_raised (x : Axis) (p : Int) (s : State) : s.ev.Raised (learnPosition x p s).ev := by
  unfold learnPosition
  split
  · exact raise_raised _ (setCtx x _ s)
  · exact .refl _

theorem checkRecord_raised (x : Axis) (r : FeedbackRecord) (m : OutEntry) (b : AxisBody) (c : AxisCtx) (s : State) :
    s.ev.Raised (checkRecord x r m b c s).ev := by
  unfold checkRecord
  dsimp only
  have h := (takeFaults_raised x (stepFaults r m b c) s).trans (learnPosition_raised x r.actual.toInt _)
  split
  · exact h.trans (checkLoad_raised ..)
  · exact h

theorem matchRecord_raised (x : Axis) (r : FeedbackRecord) (s : State) : s.ev.Raised (matchRecord x r s).ev := by
  unfold matchRecord
  dsimp only
  split
  · exact raise_raised _ _
  · split
    · exact .refl _
    · split
      · exact checkRecord_raised _ _ _ _ _ (setCtx x _ (noteJudged .monitor x s))
      · exact .refl _

theorem faultsFoundIn_raised (c : AxisCtx) (x : Axis) (r : FeedbackRecord) (s t : State)
    (h : faultsFoundIn c x r s = some t) : s.ev.Raised t.ev := by
  unfold faultsFoundIn at h
  split at h
  · split at h
    · cases h
      exact checkRecord_raised _ _ _ _ _ (setCtx x _ (noteJudged .monitor x s))
    · cases h
  · cases h

theorem judgeRecord_raised (x : Axis) (r : FeedbackRecord) (s : State) : s.ev.Raised (judgeRecord x r s).ev := by
  unfold judgeRecord
  dsimp only
  split
  · exact matchRecord_raised ..
  · split
    · rename_i c _ _
      cases h : faultsFoundIn c x r (chosen s) with
      | none => exact matchRecord_raised _ _ (chosen s)
      | some t => exact faultsFoundIn_raised c x r (chosen s) t h
    · exact matchRecord_raised _ _ (chosen s)

theorem takeFeedbackRecord_raised (r : FeedbackRecord) (s : State) :
    s.ev.Raised (takeFeedbackRecord r s).ev := by
  unfold takeFeedbackRecord
  split
  · exact raise_raised _ _
  · split
    · exact raise_raised _ _
    · split
      · exact raise_raised _ _
      · exact judgeRecord_raised _ _ { s with fb := _ }

/-! ## The router and the requests -/

theorem takeForeignFrame_raised (f : ManageFrame) (s : State) : s.ev.Raised (takeForeignFrame f s).ev := by
  unfold takeForeignFrame
  split
  · exact raise_raised _ _
  · exact handManage_raised ..

theorem routeConsole_raised (f : Frame) (s : State) : s.ev.Raised (routeConsole f s).ev := by
  unfold routeConsole
  split
  · exact judgeConsoleFrame_raised ..
  · split
    · exact .refl _
    · split
      · rw [(takeManageFrame_same _ s).2.2.2.2.2.2.2.2.2.2.2.2.2.2.2.2.2.1]; exact .refl _
      · exact takeForeignFrame_raised ..
  · exact .refl _
  · exact .refl _

theorem route_raised (p : Port) (f : Frame) (s : State) : s.ev.Raised (route p f s).ev := by
  unfold route
  split
  · exact routeConsole_raised ..
  · unfold routeDrive
    split <;> simp [EventUnit.Raised.refl]

theorem writeLine_raised (l : Line) (b : InterlockBody) (s : State) : s.ev.Raised (writeLine l b s).ev :=
  settleIfDue_raised l (setLineEntry l _ s)

theorem eraseLine_raised (l : Line) (s : State) : s.ev.Raised (eraseLine l s).ev :=
  settleIfDue_raised l (setLineEntry l _ s)

theorem takeGroup_raised (e : Envelope) (g : CueGroup) (s : State) : s.ev.Raised (takeGroup e g s).ev := by
  unfold takeGroup
  dsimp only [answer_ev]
  exact (raiseAll_raised _ (mapCtx _ { s with active := some g, staged := none })).trans (informTare_raised _)

theorem haltSet_raised (e : Envelope) (x : AxisSet) (s : State) : s.ev.Raised (haltSet e x s).ev :=
  raiseAll_raised _ (mapCtx _ s)

theorem acceptMode_raised (e : Envelope) (m : Mode) (s : State) : s.ev.Raised (acceptMode e m s).ev :=
  abortTare_raised .mode { s with req := { s.req with mode := m } }

end Sys2Proof.Machine
end

