-- ==== Sys2Proof/Laws/Requests.lean ====
section
/-! SUPPORT. The request handler: what carrying out one request can do, said once for all request commands (R162, R163). -/

namespace Sys2Proof.Machine

/-- The state in which the front request of the accepted frames is carried out: the request has been taken from them (R162). -/
def withoutFront (rest : List Envelope) (more : List (List Envelope)) (s : State) : State :=
  { s with req := { s.req with frames := framesLeft rest more } }

theorem nextRequest_front {s : State} {e : Envelope} {rest : List Envelope} {more : List (List Envelope)}
    (h : s.req.frames = (e :: rest) :: more) : nextRequest s = some (e, withoutFront rest more s) := by
  unfold nextRequest
  rw [h]
  rfl

theorem nextRequest_some {s t : State} {e : Envelope} (h : nextRequest s = some (e, t)) :
    ∃ rest more, s.req.frames = (e :: rest) :: more ∧ t = withoutFront rest more s := by
  unfold nextRequest at h
  split at h
  · rename_i e' rest more hf
    cases h
    exact ⟨rest, more, hf, rfl⟩
  · cases h

/-- A request command on the front request of its kind. -/
theorem carryOut_front {s : State} {e : Envelope} {rest : List Envelope} {more : List (List Envelope)} {kind : Byte}
    (run : Envelope → State → State) (h : s.req.frames = (e :: rest) :: more) (hk : e.kind = kind) :
    carryOut kind run s = .next (run e (withoutFront rest more s)) := by
  unfold carryOut
  rw [nextRequest_front h]
  simp [hk]

/-- Everything that a request command can answer. -/
theorem carryOut_cases (kind : Byte) (run : Envelope → State → State) (s : State) :
    carryOut kind run s = .next s ∨
    ∃ e rest more, s.req.frames = (e :: rest) :: more ∧ e.kind = kind ∧
      carryOut kind run s = .next (run e (withoutFront rest more s)) := by
  unfold carryOut
  split
  · rename_i e t h
    obtain ⟨rest, more, hf, rfl⟩ := nextRequest_some h
    split
    · exact Or.inr ⟨e, rest, more, hf, by assumption, rfl⟩
    · exact Or.inl rfl
  · exact Or.inl rfl

/-- A property of a request command's next state, from the property of the state before and of the request carried out. -/
theorem carryOut_ind {P : State → Prop} {kind : Byte} {run : Envelope → State → State} {s t : State} (hs : P s)
    (hr : ∀ e rest more, s.req.frames = (e :: rest) :: more → e.kind = kind → P (run e (withoutFront rest more s)))
    (h : carryOut kind run s = .next t) : P t := by
  rcases carryOut_cases kind run s with h' | ⟨e, rest, more, hf, hk, h'⟩ <;> rw [h'] at h <;> cases h
  · exact hs
  · exact hr e rest more hf hk

/-- A judged request ends in a decoding refusal, in WRONG_MODE, or in its own judgement (R163). -/
theorem judged_ind {P : State → Prop} {α : Type} {e : Envelope} {g : RequestGroup} {decoded : Except Nat α}
    {own : α → State → State} {s : State} (hf : ∀ n, P (refuseField e n s)) (hw : P (refuse e .wrongMode s))
    (ho : ∀ x, decoded = .ok x → g.admits s.req.mode = true → P (own x s)) : P (judged e g decoded own s) := by
  unfold judged
  split
  · exact hf _
  · split
    · exact ho _ rfl (by assumption)
    · exact hw

theorem indexed_ind {P : State → Prop} {n : Nat} {e : Envelope} {k : Nat} {own : Fin n → State → State} {s : State}
    (hb : P (refuse e .badIndex s)) (ho : ∀ i : Fin n, i.val = k → P (own i s)) : P (indexed n e k own s) := by
  unfold indexed
  split
  · exact hb
  · rename_i i hi
    exact ho i ((toIndex_eq_some i).mp hi)

theorem guarded_ind {P : State → Prop} {e : Envelope} {table : TableCode} {index : Nat} {locked : Bool}
    {own : State → State} {s : State} (hp : P (refuseProtected e table index s))
    (ho : ¬ (s.req.mode = .inShow ∧ locked = true) → P (own s)) : P (guarded e table index locked own s) := by
  unfold guarded
  split
  · exact hp
  · rename_i h
    apply ho
    rintro ⟨hm, hl⟩
    exact h (by simp [protects, hm, hl])

/-- The AXIS_MOVING test of MODE and RESTART (R165, R173). -/
theorem anyMoving_iff (s : State) : anyMoving s = true ↔ Moving s := by
  simp only [anyMoving, someAxis_iff, Moving]
  constructor <;> rintro ⟨x, h⟩ <;> exact ⟨x, by simpa [AxisState.moving] using h⟩

/-- The AXIS_MOVING test of PUT_SETTINGS (R172). -/
theorem someInCue_iff (s : State) : someAxis AxisState.inCue s.ctx = true ↔ SomeInCue s := by
  simp only [someAxis_iff, SomeInCue]

/-! ## Every request queues exactly one answer (R163)

`OneAnswer e s t`: from `s` to `t` the request handler has queued one answer, with the tag and the kind of `e`. -/

/-- From `s` to `t` exactly one answer has joined the answer queue, with the tag and kind of `e`, and the accepted frames and
the manage-dropped flag have not changed. -/
def OneAnswer (e : Envelope) (s t : State) : Prop :=
  ∃ result body, t.req.answers = s.req.answers ++ [⟨e.tag, e.kind, result, body⟩] ∧ t.req.frames = s.req.frames

theorem OneAnswer.answer {e : Envelope} {r : Result} {b : AnswerBody} {s t : State} (h : t.req = s.req) :
    OneAnswer e s (answer e r b t) := ⟨r, b, by simp [h], by simp [h]⟩

theorem OneAnswer.accept {e : Envelope} {s t : State} (h : t.req = s.req) : OneAnswer e s (accept e t) :=
  OneAnswer.answer h

theorem OneAnswer.refuse {e : Envelope} {r : Result} {s t : State} (h : t.req = s.req) : OneAnswer e s (refuse e r t) :=
  OneAnswer.answer h

theorem OneAnswer.judged {α : Type} {e : Envelope} {g : RequestGroup} {decoded : Except Nat α} {own : α → State → State}
    {s : State} (ho : ∀ x, OneAnswer e s (own x s)) : OneAnswer e s (judged e g decoded own s) :=
  judged_ind (fun _ => .answer rfl) (.refuse rfl) (fun x _ _ => ho x)

theorem OneAnswer.indexed {n : Nat} {e : Envelope} {k : Nat} {own : Fin n → State → State} {s : State}
    (ho : ∀ i, OneAnswer e s (own i s)) : OneAnswer e s (indexed n e k own s) :=
  indexed_ind (.refuse rfl) (fun i _ => ho i)

theorem OneAnswer.guarded {e : Envelope} {table : TableCode} {index : Nat} {locked : Bool} {own : State → State}
    {s : State} (ho : OneAnswer e s (own s)) : OneAnswer e s (guarded e table index locked own s) :=
  guarded_ind (.refuse rfl) (fun _ => ho)

end Sys2Proof.Machine
end

