-- ==== Sys2Proof/Tests/Slice0.lean ====
section
/-! SUPPORT. The package's own tests: ill-formed commands, numbers of the manual, one step of each family, and a witness for
the hypotheses of each statement. -/

namespace Sys2Proof.Tests
open Sys2Proof.Machine
set_option Elab.async false

/-! ## States -/

/-- An axis body of the manual's worked cases (section 3.8). -/
def body : AxisBody :=
  { lower := 1000000, upper := 24000000, vmax := 6000, amax := 20, sdec := 40, hang := 3000000, crown := 200000,
    followTol := 20000, captureWin := 10000, trackWin := 200000, load := none }

/-- The load section of the manual's example (section 8.3). -/
def cell : LoadSection :=
  { gain := 300, tareOffset := 2048, overload := 25000, slack := 2000, snagBand := 1500, filterLen := 4 }

/-- A context in a state, at a position, with a step. -/
def ctx (state : AxisState) (pos : Option Int) (step : Int) : AxisCtx :=
  { AxisCtx.cleared with state := state, pos := pos, step := step }

/-- `s` with an axis configured and its context set. -/
def withAxis (x : Axis) (b : AxisBody) (c : AxisCtx) (s : State) : State :=
  setCtx x c { s with axisTab := tset s.axisTab x { body := some b, locked := true } }

/-- A pair rule that keeps axis 6 below axis 5. -/
def rule : PairBody := { upper := 5, lower := 6, gap := 1000000, warn := 100000 }

/-- In SHOW, axis 5 TRACKING above the PARKED axis 6, both named by one rule. -/
def moving : State :=
  withAxis 6 body (ctx .parked (some 2000000) 0)
    (withAxis 5 body { ctx .tracking (some 10000000) 6000 with capture := true }
      { State.reset with
        req := { State.reset.req with mode := .inShow }
        active := some { number := 51, axes := [5] }
        pairTab := tset State.reset.pairTab 0 { body := some rule, locked := true, warning := false } })

/-- The frame in the engine: one console record, for axis 5. -/
def hand (r : ConsoleRecord) : Screening :=
  { seq := 7, synthesised := false, todo := [r], nextAxis := 0, fixed := [], placed := [], restarted := false }

/-- `s` with a frame in the engine. -/
def screening (e : Screening) (s : State) : State :=
  { s with engine := some e, cyc := { s.cyc with cadence := .screening, conSeq := some 3 } }

/-- A record that asks axis 5 for 10,006,000. -/
def ask5 : ConsoleRecord := { axis := 5, flags := 0, position := 10006000 }

/-- A state that keeps every law, with a frame to screen. -/
def busy : State := { screening (hand ask5) moving with pending := [.screenConsoleRecord] }

theorem inRange_body : body.InRange := by
  constructor <;> simp [body]

theorem ctxOf_busy (x : Axis) : ctxOf busy x =
    if x = 6 then ctx .parked (some 2000000) 0
    else if x = 5 then { ctx .tracking (some 10000000) 6000 with capture := true } else AxisCtx.cleared := by
  have : busy.ctx = tset (tset (Vector.replicate 128 AxisCtx.cleared) 5
      { ctx .tracking (some 10000000) 6000 with capture := true }) 6 (ctx .parked (some 2000000) 0) := rfl
  rw [ctxOf, this, tget_tset, tget_tset, tget_replicate]

theorem axisTab_busy (x : Axis) : tget busy.axisTab x =
    if x = 6 ∨ x = 5 then { body := some body, locked := true } else { body := none, locked := false } := by
  have : busy.axisTab = tset (tset State.reset.axisTab 5 { body := some body, locked := true }) 6
      { body := some body, locked := true } := rfl
  rw [this, tget_tset, tget_tset]
  by_cases h6 : x = 6 <;> by_cases h5 : x = 5 <;> simp [h6, h5, State.reset]

theorem pairTab_busy (i : PairIndex) : tget busy.pairTab i =
    if i = 0 then { body := some rule, locked := true, warning := false }
    else { body := none, locked := false, warning := false } := by
  have : busy.pairTab = tset (Vector.replicate 512 { body := none, locked := false, warning := false }) 0
      { body := some rule, locked := true, warning := false } := rfl
  rw [this, tget_tset]
  split
  · rfl
  · exact tget_replicate _ _

theorem lineTab_busy (l : Line) : tget busy.lineTab l = { body := none, locked := false } := tget_replicate _ _

theorem lines_busy (l : Line) : tget busy.lines l = LineState.unsettledAt .low 0 := tget_replicate _ _

theorem bodyOf_busy (x : Axis) : bodyOf busy x = if x = 6 ∨ x = 5 then some body else none := by
  rw [bodyOf, axisTab_busy]; split <;> rfl

theorem tables_busy : TablesLawful busy := by
  constructor
  · intro x b h
    rw [axisTab_busy] at h
    split at h <;> cases h
    exact inRange_body
  · intro x h
    rw [axisTab_busy] at h ⊢
    split at h <;> simp_all
  · intro i b h
    rw [pairTab_busy] at h
    split at h <;> cases h
    constructor <;> simp [rule]
  · intro i h
    rw [pairTab_busy] at h ⊢
    split at h <;> simp_all
  · intro i j b c h h' _ _
    rw [pairTab_busy] at h h'
    split at h <;> split at h' <;> simp_all
  · intro l b h
    rw [lineTab_busy] at h
    cases h
  · intro l _
    rw [lineTab_busy]
  · constructor <;> decide

theorem contexts_busy : ContextsLawful busy := by
  intro x
  rw [bodyOf_busy, ctxOf_busy]
  by_cases h6 : x = 6
  · simp only [h6, if_true, true_or]
    constructor <;> simp [ctx, AxisCtx.cleared]
  · by_cases h5 : x = 5
    · simp only [h5, or_true, if_true]
      constructor <;> simp [ctx, AxisCtx.cleared]
    · simp only [h5, h6, or_self, if_false]
      constructor <;> simp [AxisCtx.cleared]

theorem test_busy_lawful : Lawful busy := by
  constructor
  · exact tables_busy
  · exact contexts_busy
  · intro x b h
    rw [bodyOf_busy] at h
    rw [ctxOf_busy]
    split at h <;> cases h
    rename_i hx
    rcases hx with rfl | rfl <;> decide
  · intro x b p h hp
    rw [bodyOf_busy] at h
    rw [ctxOf_busy] at hp ⊢
    split at h <;> cases h
    rename_i hx
    rcases hx with rfl | rfl <;> cases hp <;> decide
  · constructor
    · constructor
      · intro h; exact absurd h (by decide +kernel)
      · rintro ⟨x, hx⟩
        rw [ctxOf_busy] at hx
        split at hx <;> [cases hx; split at hx <;> cases hx]
    · constructor
      · intro _; exact ⟨5, by left; decide +kernel⟩
      · intro _; decide +kernel
  · refine ⟨?_, ?_, ?_⟩
    · intro g hg
      cases hg
      refine ⟨by simp, ?_⟩
      intro x hx
      have : x = 5 := by simpa using hx
      subst this
      rw [ctxOf_busy]; decide
    · intro g hg; cases hg
    · intro x hx
      rw [ctxOf_busy] at hx
      split at hx <;> [cases hx; split at hx]
      · rename_i h; subst h; decide +kernel
      · cases hx
  · intro t ht; cases ht
  · intro l
    rw [lines_busy]; rfl
  · constructor <;> decide
  · intro e he
    cases he
    constructor <;> decide
  · constructor
    · decide
    · decide
    · intro q hq; cases hq
    · intro k q hq
      have : tget busy.ev.latches k = none := tget_replicate _ _
      rw [this] at hq; cases hq
  · exact ⟨by decide, by intro f hf; cases hf⟩
  · constructor <;> decide

/-! ## Well-formed commands: each check refuses an ill-formed term -/

def hdr (dest : Byte) : Header := { dest := dest, source := 9, flags := 0, seq := 4 }

theorem test_wf_setpoint_limit :
    (Instr.consoleSetpointFrame 0 { hdr := hdr 1, records := List.replicate 129 ask5 }).wf = false := by decide +kernel

/-- A feedback record of axis 5 that acknowledges the frame 0. -/
def fb5 : FeedbackRecord :=
  { axis := 5, status := 7, ack := 0, actual := 10000000, rawLoad := 18432, code := 0, spare := 0 }

theorem test_wf_feedback_limit :
    (Instr.feedbackFrame { hdr := hdr 0, records := List.replicate 129 fb5 }).wf = false := by decide +kernel

theorem test_wf_manage_limit :
    (Instr.manageFrame 0 { hdr := hdr 1, requests := List.replicate 9 ⟨0, 4, []⟩ }).wf = false := by decide +kernel

theorem test_wf_manage_length (bs : List Byte) (h : 65536 ≤ bs.length) :
    (Instr.manageFrame 0 { hdr := hdr 1, requests := [⟨0, 4, bs⟩] }).wf = false := by
  simp [Instr.wf, ManageFrame.wf, Envelope.bytes]
  omega

theorem test_wf_manage_node0 : (Instr.manageFrame 0 { hdr := hdr 0, requests := [] }).wf = false := by decide +kernel

theorem test_wf_foreign_node0 : (Instr.foreignManageFrame { hdr := hdr 0, requests := [] }).wf = false := by decide +kernel

theorem test_wf_report_count :
    (Instr.driveReportFrame { hdr := hdr 0, count := 13, body := List.replicate 21 0 }).wf = false := by decide +kernel

theorem test_wf_report_short :
    (Instr.driveReportFrame { hdr := hdr 0, count := 0, body := List.replicate 20 0 }).wf = false := by decide +kernel

theorem test_wf_report_envelopes :
    (Instr.driveReportFrame { hdr := hdr 0, count := 0, body := List.replicate 22 0 }).wf = false := by decide +kernel

theorem test_wf_report_length (bs : List Byte) (h : 65536 ≤ bs.length) :
    (Instr.driveReportFrame { hdr := hdr 0, count := 0, body := bs }).wf = false := by
  simp [Instr.wf, DriveReport.wf, show ¬ bs.length < 65536 by omega]

theorem test_wf_discard_handed_on :
    (Instr.routerDiscard .console (.setpoint { hdr := hdr 1, records := [] })).wf = false := by decide +kernel

theorem test_wf_corrupt_passes : (Instr.corruptFrame .console
    (SetpointFrame.bytes { hdr := hdr 1, records := [ask5] })).wf = false := by decide +kernel

theorem test_wf_accepts : (Instr.corruptFrame .drive [1, 2]).wf = true ∧
    (Instr.routerDiscard .drive (.manage { hdr := hdr 1, requests := [] })).wf = true ∧
    (Instr.driveReportFrame { hdr := hdr 0, count := 1, body := List.replicate 27 0 }).wf = true := by decide +kernel

/-! ## Numbers of the manual's worked cases -/

/-- The check value of section 10.6. -/
theorem test_check_value : crc32 [0x31, 0x32, 0x33, 0x34, 0x35, 0x36, 0x37, 0x38, 0x39] = 0xCBF43926 := by decide +kernel

/-- The table of section 3.5. -/
theorem test_stopping_distances :
    [20, 40, 200, 1000, 5960, 5980, 6000].map (dStop 40) = [0, 0, 400, 12000, 441040, 444020, 447000] := by decide +kernel

/-- The table of R127. -/
theorem test_loads : loadOf cell 18432 = 19200 ∧ loadOf cell 2000 = -56 ∧
    loadOf { cell with tareOffset := -30000, gain := 65535 } 32000 = 1000000 := by decide +kernel

/-- The averages of R128. -/
theorem test_filtered_loads :
    filteredOf 4 [19200, 19180, 19260, 19210] = 19212 ∧ filteredOf 2 [-56, -57] = -57 ∧ filteredOf 8 [1, 2, 6] = 3 := by
  decide +kernel

/-- Capture from rest (section 3.8.2), and the descent to a SLOW cap (section 3.8.3). -/
theorem test_candidates :
    candidate body 6000 ⟨10000000, 0⟩ 10006000 = ⟨10000020, 20⟩ ∧
    candidate body 6000 ⟨10000060, 40⟩ 10018000 = ⟨10000120, 60⟩ ∧
    candidate body 1000 ⟨0, 6000⟩ 6000 = ⟨5960, 5960⟩ ∧ candidate body 1000 ⟨0, 5960⟩ 12000 = ⟨5920, 5920⟩ ∧
    candidate body 1000 ⟨0, 1000⟩ 12000 = ⟨1000, 1000⟩ ∧ candidate body 0 ⟨0, 0⟩ 12000 = ⟨0, 0⟩ := by decide +kernel

/-- The approach to the upper limit (section 3.8.4). -/
theorem test_projections : projection 40 ⟨23556000, 6000⟩ = 24003000 ∧ projection 40 ⟨23555960, 5960⟩ = 23997000 ∧
    projection 40 ⟨23555980, 5980⟩ = 24000000 := by decide +kernel

/-! ## One step of each family -/

/-- The state after a command. -/
def after (c : Instr) (s : State) : State :=
  match exec c s with
  | .next t => t
  | .fault _ => s
  | .refused _ => s

/-- `s` with one accepted frame of one request. -/
def asked (kind : Byte) (bs : List Byte) (s : State) : State :=
  { s with req := { s.req with frames := [[{ tag := 7, kind := kind, body := bs }]] } }

/-- The answers after a request command. -/
def answersTo (c : Instr) (kind : Byte) (bs : List Byte) (s : State) : List Answer := (after c (asked kind bs s)).req.answers

/-- `s` in COMMISSION. -/
def inCommission (s : State) : State := { s with req := { s.req with mode := .commission } }

theorem test_power_on_reset : ((after .powerOnReset busy).ev.queue.map QueuedEvent.event).take 1 =
    [.interlockChanged 0 .low .noEntry] ∧ (after .powerOnReset busy).ev.queue.length = 16 ∧
    (tget (after .powerOnReset busy).lines 15).settled = .known .low := by decide +kernel

theorem test_step_takes_front : (match step { busy with pending := [.dropCue, .mode] } with
    | .next t => t.pending
    | _ => []) = [.mode] := by decide +kernel

theorem test_idle_step : (match step { State.reset with now := 124999 } with
    | .next t => t.pending.length
    | _ => 0) = 16 := by decide +kernel

theorem test_pass : (ctxOf (after .screenConsoleRecord busy) 5).pos = some 10006000 ∧
    (ctxOf (after .screenConsoleRecord busy) 5).outcome = .pass ∧
    ((after .screenConsoleRecord busy).engine.map Screening.fixed) =
      some [{ axis := 5, cmd := .follow, pos := some 10006000, step := 6000 }] := by decide +kernel

/-- A request beyond the limit: the axis is stopped and takes its ramp step at once (section 3.8.4). -/
def nearLimit : State :=
  screening (hand { ask5 with position := 23556000 })
    (setCtx 5 { ctx .tracking (some 23550000) 6000 with capture := true } moving)

theorem test_refused : (ctxOf (after .screenConsoleRecord nearLimit) 5).pos = some 23555960 ∧
    (ctxOf (after .screenConsoleRecord nearLimit) 5).cause = some .limit ∧
    (after .screenConsoleRecord nearLimit).ev.queue.map QueuedEvent.event =
      [.axisStopped 5 (.stop .limit) 23550000] := by decide +kernel

/-- The frame in the engine with its console record left out. -/
def unnamed : Screening := { hand ask5 with todo := [] }

theorem test_missing_record : (ctxOf (after (.screenUnnamedAxis 5) (screening unnamed moving)) 5).cause = some .missingRecord ∧
    (ctxOf (after (.screenUnnamedAxis 5) (screening { unnamed with synthesised := true } moving)) 5).capture = false := by
  decide +kernel

/-- Every axis screened, and the record of axis 5 fixed. -/
def placing : Screening :=
  { unnamed with nextAxis := 128, fixed := [{ axis := 5, cmd := .follow, pos := some 10000000, step := 6000 }] }

/-- A list of `n` entries. -/
def waiting (n : Nat) : List OutEntry :=
  (List.range n).map (fun k => { seq := BitVec.ofNat 16 k, pos := none, cmd := .holdBrake })

/-- Axis 5 with `n` entries in its outstanding list. -/
def listed (n : Nat) (c : AxisCtx) : State :=
  screening placing (setCtx 5 { c with outstanding := waiting n } moving)

theorem test_append : (ctxOf (after .outstandingAppend (listed 3 (ctxOf moving 5))) 5).outstanding.length = 4 ∧
    (ctxOf (after .outstandingAppend (listed 4 (ctxOf moving 5))) 5).fault = some { what := .noDrive, further := 0 } ∧
    ((after .outstandingAppend (listed 4 (ctxOf moving 5))).engine.map Screening.placed) =
      some [{ axis := 5, cmd := .quickstop, pos := some 10000000, step := 0 }] := by decide +kernel

theorem test_emission : (after (.emission 500) (screening { unnamed with nextAxis := 128 } moving)).cyc =
    { cadence := .waiting, mark := some { moment := 500, window := 100000, deadline := 150000 }, timer := true,
      conSeq := some 3, downSeq := 1, late := 0 } := by decide +kernel

/-- Cadence waiting after an emission. -/
def waitingState : State := after (.emission 500) (screening { unnamed with nextAxis := 128 } moving)

theorem test_console_frame :
    (after (.consoleSetpointFrame 100500 { hdr := hdr 1, records := [ask5] }) waitingState).cyc.cadence = .screening ∧
    (after (.consoleSetpointFrame 100499 { hdr := hdr 1, records := [ask5] }) waitingState).ev.queue.map QueuedEvent.event =
      [.frameEarly 4] ∧
    (after (.consoleSetpointFrame 100500 { hdr := { hdr 1 with seq := 3 }, records := [] }) waitingState).ev.queue.map
      QueuedEvent.event = [.frameStale 3 3] ∧
    (after (.consoleSetpointFrame 100500 { hdr := { hdr 1 with seq := 6 }, records := [] }) waitingState).ev.queue.map
      QueuedEvent.event = [.sequenceGap 6 2] := by decide +kernel

theorem test_deadline : (after .deadlineExpiry waitingState).cyc.late = 1 ∧ (after .deadlineExpiry waitingState).now = 150500 ∧
    (after .deadlineExpiry waitingState).ev.queue.map QueuedEvent.event = [.consoleLate 1 3] := by decide +kernel

/-- `s` with a feedback record in hand, axis 5 in the context `c` with one setpoint unanswered. -/
def heardFrom (r : FeedbackRecord) (b : AxisBody) (c : AxisCtx) (s : State) : State :=
  { withAxis 5 b { c with outstanding := [{ seq := 0, pos := some 10000000, cmd := .follow }] } s with
    fb := { frames := [[r]], taken := [] } }

theorem test_located :
    (ctxOf (after .feedbackRecord (heardFrom fb5 body (ctx .locating none 0) State.reset)) 5).state = .parked ∧
    (after .feedbackRecord (heardFrom fb5 body (ctx .locating none 0) State.reset)).ev.queue.map QueuedEvent.event =
      [.axisLocated 5 10000000] := by decide +kernel

theorem test_following_error :
    (after .feedbackRecord (heardFrom { fb5 with actual := 10020001 } body (ctxOf moving 5) moving)).ev.queue.map
      QueuedEvent.event =
      [.axisFaulted 5 (.followingError 0 10000000 10020001), .axisStopped 5 (.fault .followingError) 10000000] := by
  decide +kernel

/-- The body with its load section. -/
def withCell : AxisBody := { body with load := some cell }

/-- An overload in a learning record: AXIS_LOCATED, then FAULTED without a position (R122, R129, log entry 28). -/
theorem test_overload_in_locating :
    (ctxOf (after .feedbackRecord (heardFrom { fb5 with rawLoad := 32767 } withCell (ctx .locating none 0) moving)) 5).pos = none ∧
    (after .feedbackRecord (heardFrom { fb5 with rawLoad := 32767 } withCell (ctx .locating none 0) moving)).ev.queue.map
      QueuedEvent.event = [.axisFaulted 5 (.overload 35998), .axisLocated 5 10000000] := by decide +kernel

/-- A record that reports a drive fault, its brake on. -/
def broken : FeedbackRecord := { fb5 with code := 9, status := 5 }

/-- Axis 5 with a full list, and a feedback record in hand. -/
def crowded (r : FeedbackRecord) : State :=
  { listed 4 (ctxOf moving 5) with fb := { frames := [[r]], taken := [] } }

/-- The record has faulted axis 5, and the record of the frame in the engine is still to be placed. -/
def struck : State := after .feedbackRecord (crowded broken)

/-- The append has faulted axis 5, and the feedback record `r` is in hand. -/
def overrun (r : FeedbackRecord) : State := after .outstandingAppend (crowded r)

/-- Two blocks that judge axis 5 together: the second fault is a further fault, whichever comes first (R31). -/
theorem test_judged_together :
    (ctxOf (overflow 7 5 (ctxOf (crowded broken) 5) struck).1 5).fault = some { what := .driveFault 9, further := 1 } ∧
    (ctxOf (overflow 7 5 (ctxOf (crowded broken) 5) struck).1 5).outstanding.length = 1 ∧
    (faultsFoundIn (ctxOf (crowded broken) 5) 5 broken (overrun broken)).map (fun t => (ctxOf t 5).fault) =
      some (some { what := .noDrive, further := 1 }) := by decide +kernel

/-- A record taken before the axis is screened, or an append with no record in hand, leaves nothing to be judged together (R45). -/
theorem test_not_judged_together :
    (after .feedbackRecord { crowded broken with engine := some unnamed }).judged = none ∧
    (after .outstandingAppend { crowded broken with fb := { frames := [], taken := [] } }).judged = none := by decide +kernel

/-- The context of section 8.3, before the landing. -/
def flown : AxisCtx :=
  { ctx .tracking (some 10000000) (-400) with
    ring := [19210, 19260, 19180, 19200], filtered := some 19212, reference := some 19212, capture := true }

/-- The record of the landing: a load of 12,000. -/
def landing : State := heardFrom { fb5 with rawLoad := 12288 } withCell flown moving

/-- The snag of section 8.3. -/
theorem test_snag : (ctxOf (after .feedbackRecord landing) 5).cause = some .snag ∧
    (ctxOf (after .feedbackRecord landing) 5).filtered = some 17412 := by decide +kernel

/-- A tare of axis 5 with fifteen samples of 2,048. -/
def taring (n : Nat) : State :=
  heardFrom { fb5 with rawLoad := 2049 } withCell (ctx .parked (some 10000000) 0)
    (inCommission { State.reset with tare := some { axis := 5, stage := 1, count := n, sum := 2048 * (n : Int) } })

theorem test_tare : (after .feedbackRecord (taring 15)).ev.queue.map QueuedEvent.event = [.tareDone 5 2048] ∧
    (after .feedbackRecord (taring 14)).tare = some { axis := 5, stage := 1, count := 15, sum := 30721 } ∧
    (ctxOf (after .feedbackRecord (taring 15)) 5).ring = [] := by decide +kernel

theorem test_interlock :
    (tget (after (.interlockRawChange 5 2 .high) State.reset).lines 2).settled = .known .high ∧
    (after (.interlockRawChange 5 2 .high) State.reset).ev.queue.map QueuedEvent.event =
      [.interlockChanged 2 .high .noEntry] ∧
    (tget (after (.interlockSettle 2) State.reset).lines 2).settled = .known .low := by decide +kernel

theorem test_report : (after .reportTimerExpiry (after .powerOnReset busy)).ev.queue.length = 4 ∧
    (after .reportTimerExpiry (after .powerOnReset busy)).now = 125000 ∧
    ((after .reportTimerExpiry (after .powerOnReset busy)).up.tx.map (fun f => f.bytes.length)) = some (10 + 21 + 96 + 4) := by
  decide +kernel

theorem test_mode : answersTo .mode 1 [1] State.reset = [⟨7, 1, .accepted, .empty⟩] ∧
    answersTo .mode 1 [2] State.reset = [⟨7, 1, .wrongMode, .empty⟩] ∧
    answersTo .mode 1 [1] moving = [⟨7, 1, .axisMoving, .empty⟩] := by decide +kernel

theorem test_get : answersTo .getEntry 2 [2, 0, 0] moving =
      [⟨7, 2, .accepted, .pairEntry 0 { body := some rule, locked := true, warning := false }⟩] ∧
    answersTo .getAxis 3 [128] moving = [⟨7, 3, .badIndex, .empty⟩] ∧
    answersTo .getAxis 3 [5] (withAxis 5 withCell flown moving) = [⟨7, 3, .accepted, .context flown (some 2048)⟩] ∧
    answersTo .getSettings 4 [] moving = [⟨7, 4, .accepted, .settings Settings.initial⟩] ∧
    answersTo .unknownRequest 21 [] moving = [⟨7, 21, .unknownRequest, .empty⟩] := by decide +kernel

theorem test_set_mask : (after .setMask (asked 5 [0x82] moving)).ev.mask = 2 := by decide +kernel

theorem test_halt : answersTo .haltAxes 6 [2, 5, 6] moving = [⟨7, 6, .accepted, .halted 1 0⟩] ∧
    (ctxOf (after .haltAxes (asked 6 [255] moving)) 5).cause = some .stopRequest ∧
    answersTo .haltAxes 6 [1, 128] moving = [⟨7, 6, .badField, .badField 1⟩] := by decide +kernel

theorem test_restart : answersTo .restart 8 [] moving = [⟨7, 8, .axisMoving, .empty⟩] ∧
    (after .restart (asked 8 [] State.reset)).ev.queue.length = 16 ∧
    (after .restart (asked 8 [] State.reset)).req.mode = .commission := by decide +kernel

theorem test_puts : answersTo .putAxis 11 (6 :: body.bytes) moving = [⟨7, 11, .isProtected, .empty⟩] ∧
    answersTo .putAxis 11 (7 :: body.bytes) moving = [⟨7, 11, .accepted, .empty⟩] ∧
    answersTo .putPair 9 ([0, 1] ++ rule.bytes) moving = [⟨7, 9, .duplicatePair, .duplicatePair 0⟩] ∧
    answersTo .putInterlock 10 [3, 1, 1, 0, 0, 20, 255] moving = [⟨7, 10, .accepted, .empty⟩] ∧
    answersTo .putSettings 13 [1, 11, 6, 4, 1, 244, 60] (inCommission State.reset) =
      [⟨7, 13, .badField, .badField 3⟩] := by decide +kernel

theorem test_erase_and_lock : answersTo .eraseEntry 12 [1, 0, 6] (inCommission moving) = [⟨7, 12, .accepted, .empty⟩] ∧
    answersTo .eraseEntry 12 [1, 0, 5] (inCommission moving) = [⟨7, 12, .axisMoving, .empty⟩] ∧
    (tget (after .unlockEntry (asked 15 [2, 0, 0] (inCommission moving))).pairTab 0).locked = false ∧
    answersTo .lockEntry 14 [3, 0, 15] (inCommission moving) = [⟨7, 14, .notConfigured, .empty⟩] := by decide +kernel

theorem test_tare_requests : answersTo .tare 16 [5] (inCommission moving) = [⟨7, 16, .noLoadCell, .empty⟩] ∧
    answersTo .tare 16 [5] { taring 3 with tare := none } = [⟨7, 16, .accepted, .tareStage 0⟩] ∧
    answersTo .untare 17 [5] (taring 3) = [⟨7, 17, .busy, .empty⟩] ∧
    answersTo .clearFault 7 [5] moving = [⟨7, 7, .notFaulted, .empty⟩] := by decide +kernel

theorem test_cues : answersTo .stageCue 18 [0, 52, 2, 6, 5] moving = [⟨7, 18, .accepted, .staged 2⟩] ∧
    answersTo .stageCue 18 [0, 52, 255] moving = [⟨7, 18, .notConfigured, .axis 0⟩] ∧
    answersTo .takeCue 19 [] { moving with staged := some { number := 52, axes := [6] } } =
      [⟨7, 19, .accepted, .taken 52 1 0⟩] ∧
    (ctxOf (after .takeCue (asked 19 [] { moving with staged := some { number := 52, axes := [6] } })) 5).dest =
      some .parked ∧
    answersTo .dropCue 20 [] moving = [⟨7, 20, .accepted, .dropped none⟩] := by decide +kernel

theorem test_frames :
    (after (.feedbackFrame { hdr := hdr 0, records := [fb5] }) moving).fb.frames = [[fb5]] ∧
    (after (.driveReportFrame { hdr := hdr 0, count := 0, body := [] }) moving).up.tx =
      some (.forwarded (.driveReport { hdr := hdr 0, count := 0, body := [] })) ∧
    (after (.manageFrame 0 { hdr := hdr 1, requests := [⟨7, 4, []⟩] }) moving).req.frames = [[⟨7, 4, []⟩]] ∧
    (after (.foreignManageFrame { hdr := hdr 2, requests := [] }) moving).ev.queue.map QueuedEvent.event =
      [.foreignManageDropped 2 .showMode 9 4] ∧
    (after (.routerDiscard .console (.manage { hdr := hdr 0, requests := [] })) { moving with rxC := [1] }).rxC = [] ∧
    (after (.corruptFrame .drive [1]) { moving with rxD := [1] }).rxD = [] := by decide +kernel

theorem test_send_done : (after .dPortSendDone waitingState).down.tx = none ∧
    (after .cPortSendDone (after (.feedbackFrame { hdr := hdr 0, records := [] }) moving)).up.tx = none := by decide +kernel

/-! ## Every hypothesis is met: a concrete state for the hypotheses of each statement, clause by clause -/

theorem witness_StepRunsFrontCommand : { busy with pending := [.mode] }.pending = Instr.mode :: [] := rfl

theorem witness_StepsAlwaysAnswerNext : State.reset.pending = [] ∧ ownWork State.reset ≠ [] ∧
    ownWork (after .powerOnReset State.reset) = [] := by decide +kernel

theorem witness_DiscardedFramesChangeNothing : readFrame .console (moving.rxC ++ [1]) = none ∧
    readFrame .drive (moving.rxD ++ []) = none ∧ Frame.discardedAt .console (.feedback { hdr := hdr 0, records := [] }) = true ∧
    Frame.discardedAt .console (.report { hdr := hdr 0, count := 0, body := [] }) = true ∧
    Frame.discardedAt .console (.manage { hdr := hdr 0, requests := [] }) = true ∧
    Frame.discardedAt .drive (.setpoint { hdr := hdr 0, records := [] }) = true ∧
    Frame.discardedAt .drive (.manage { hdr := hdr 1, requests := [] }) = true := by decide +kernel

theorem witness_DiscardedFramesChangeNothing_checks : ¬ PassesChecks (moving.rxC ++ [1]) := by
  rintro ⟨kind, dest, source, flags, seq, count, bs, ⟨head, check, h, h1, h2⟩, _⟩
  have := h1.length
  have := h2.length
  have := congrArg List.length h
  simp [widthOf, show moving.rxC = [] from rfl] at *
  omega

/-- `s` with `n` answers in the queue. -/
def answering (n : Nat) (s : State) : State :=
  { s with req := { s.req with answers := List.replicate n ⟨0, 1, .accepted, .empty⟩ } }

theorem witness_ManageFramesAcceptedPassedOrDropped :
    (hdr 1).dest = moving.settings.node ∧ (hdr 1).dest ≠ 0 ∧ (hdr 2).dest ≠ moving.settings.node ∧
    (answering 8 moving).req.answers.length + ((answering 8 moving).req.frames.map List.length).sum + 8 ≤ 16 ∧
    16 < (answering 9 moving).req.answers.length + ((answering 9 moving).req.frames.map List.length).sum + 8 := by
  decide +kernel

/-- A downstream frame. -/
def down7 : DownFrame := { source := 1, synthesised := false, seq := 7, records := [] }

/-- A forwarded frame. -/
def fwd : Forwarded := .feedback { hdr := hdr 0, records := [] }

/-- A foreign manage frame. -/
def foreign : ManageFrame := { hdr := hdr 2, requests := [] }

/-- `s` with both transmitters sending and `d`, `u` waiting. -/
def sending (d : DownEmitter) (u : UpEmitter) (s : State) : State := { s with down := d, up := u }

theorem witness_TransmittersChooseNextFrame :
    (sending { tx := some (.setpoint down7), slot := some down7, queue := [] } moving.up moving).down.slot = some down7 ∧
    (sending { tx := some (.setpoint down7), slot := none, queue := [foreign] } moving.up moving).down.queue = [foreign] ∧
    (sending { tx := some (.setpoint down7), slot := none, queue := [] } moving.up moving).down.tx = some (.setpoint down7) ∧
    (sending moving.down { tx := some (.forwarded fwd), queue := [fwd], slot := none } moving).up.queue = [fwd] ∧
    (sending moving.down { tx := some (.forwarded fwd), queue := [], slot := some (reportFrame moving) } moving).up.slot =
      some (reportFrame moving) ∧
    (sending moving.down { tx := some (.report (reportFrame moving)), queue := [], slot := none } moving).up.tx =
      some (.report (reportFrame moving)) := by decide +kernel

theorem witness_FramesReadBackAsWritten : SetpointFrame.wf { hdr := hdr 1, records := List.replicate 128 ask5 } = true ∧
    FeedbackFrame.wf { hdr := hdr 0, records := List.replicate 128 fb5 } = true ∧
    ManageFrame.wf { hdr := hdr 1, requests := List.replicate 8 ⟨0, 4, []⟩ } = true ∧
    DriveReport.wf { hdr := hdr 0, count := 12, body := List.replicate 93 0 } = true := by decide +kernel

/-- An interlock body. -/
def lineBody : InterlockBody := { activeLevel := .high, action := .slow 20000, axes := .list [0, 127], settleTime := 255 }

theorem witness_BodiesReadBackAsWritten :
    body.InRange ∧ rule.InRange ∧ lineBody.InRange ∧ Settings.initial.InRange := by
  refine ⟨inRange_body, ?_, ?_, ?_⟩
  · constructor <;> decide
  · refine ⟨?_, ?_, by decide⟩
    · intro cap h; cases h; decide
    · intro axes h; cases h; decide
  · constructor <;> decide

/-- The request of `asked`. -/
def req (kind : Byte) (bs : List Byte) : Envelope := { tag := 7, kind := kind, body := bs }

theorem asked_front (kind : Byte) (bs : List Byte) (s : State) : FrontRequest (req kind bs) [] [] (asked kind bs s) := rfl

theorem witness_BodiesOutOfFormAreBadField : bodyFits 1 [] = false ∧ bodyFits 2 [1, 0] = false ∧ bodyFits 4 [0] = false ∧
    bodyFits 6 [] = false ∧ bodyFits 6 [2, 0] = false ∧ bodyFits 6 [255, 0] = false ∧ bodyFits 9 [] = false ∧
    bodyFits 10 [0, 0, 1, 0, 0, 0] = false ∧ bodyFits 11 (5 :: body.bytes ++ [0]) = false ∧
    bodyFits 11 (5 :: 1 :: body.bytes.drop 1) = false ∧ bodyFits 13 [] = false ∧ bodyFits 18 [0, 0] = false ∧
    bodyFits 20 [0] = false ∧ (4 : Byte) ≠ 1 ∧ (4 : Byte) ≠ 2 ∧ (4 : Byte) ≠ 3 ∧ (∃ n ∈ [128], 127 < n) ∧
    (∀ n ∈ [127, 0, 127], n ≤ 127) := by decide +kernel

/-- The mark of `waitingState`. -/
def mark500 : EmissionMark := { moment := 500, window := 100000, deadline := 150000 }

theorem witness_ConsoleFrameIsJudged :
    moving.req.mode ≠ .start ∧ moving.cyc.cadence = .stopped ∧ waitingState.req.mode ≠ .start ∧
    waitingState.cyc.cadence = .waiting ∧ waitingState.cyc.mark = some mark500 ∧ waitingState.cyc.conSeq = some 3 ∧
    mark500.moment + mark500.window ≤ max waitingState.now 100500 ∧ (4 : Word16) = 3 + 1 ∧
    (2 ≤ ((5 : Word16) - 3).toNat ∧ ((32771 : Word16) - 3).toNat ≤ 32768) ∧ State.reset.req.mode = .start ∧
    busy.cyc.cadence = .screening ∧ max waitingState.now 100499 < mark500.moment + mark500.window ∧
    32769 ≤ ((32772 : Word16) - 3).toNat := by decide +kernel

theorem witness_DeadlinesAndEmissionsPaceTheCycle_deadline : waitingState.cyc.cadence = .waiting ∧ waitingState.cyc.timer = true ∧
    waitingState.cyc.mark = some mark500 ∧ waitingState.cyc.conSeq = some 3 := by decide +kernel

/-- The frame with every axis screened and placed. -/
def built : Screening := { unnamed with nextAxis := 128 }

theorem allScreened_of_end {e : Screening} (h : e.nextAxis = 128) (s : State) : AllScreened s e := by
  intro x hx
  have := x.isLt
  omega

theorem witness_DeadlinesAndEmissionsPaceTheCycle_emission : (screening built moving).engine = some built ∧ built.todo = [] ∧
    built.fixed = [] ∧ AllScreened (screening built moving) built := ⟨rfl, rfl, rfl, allScreened_of_end rfl _⟩

theorem witness_BuiltFramesFollowLayout :
    readFrame .console (ManageFrame.bytes foreign) = some (.manage foreign) ∧
    readFrame .drive (FeedbackFrame.bytes { hdr := hdr 0, records := [fb5] }) = some (.feedback { hdr := hdr 0, records := [fb5] }) ∧
    readFrame .drive (DriveReport.bytes { hdr := hdr 0, count := 0, body := List.replicate 21 0 }) =
      some (.report { hdr := hdr 0, count := 0, body := List.replicate 21 0 }) := by decide +kernel

/-- The frame with axis 5 screened. -/
def once : Screening := { hand ask5 with fixed := [{ axis := 5, cmd := .follow, pos := some 10000000, step := 0 }] }

theorem witness_RecordsDroppedAndAxesPassed :
    (128 ≤ ({ ask5 with axis := 128 } : ConsoleRecord).axis.toNat) ∧
    ((7 : Byte).toNat = (7 : Axis).val ∧ (ctxOf busy 7).state = .unconfigured) ∧
    ask5.axis.toNat = (5 : Axis).val ∧ (ctxOf (screening once moving) 5).state ≠ .unconfigured ∧ once.hasScreened 5 = true ∧
    unnamed.nextAxis ≤ (0 : Axis).val ∧ (ctxOf (screening unnamed moving) 0).state = .unconfigured := by decide +kernel

/-- The console record is taken for axis 5. -/
theorem takes5 (s : State) (hs : s.engine = some (hand ask5)) (h : (ctxOf s 5).state ≠ .unconfigured) :
    Screens s 5 .screenConsoleRecord (some 10006000) unnamed :=
  Screens.record (hand ask5) ask5 [] ⟨hs, rfl, rfl, h, rfl⟩

/-- The engine reaches axis 5 with nothing before it to screen. -/
theorem reaches5 (f : Bool) (s : State) (h : (ctxOf s 5).state ≠ .unconfigured) (h0 : ∀ y : Axis, y.val < 5 →
    (ctxOf s y).state = .unconfigured) :
    ReachesAxis (screening { unnamed with synthesised := f } s) { unnamed with synthesised := f } 5 :=
  ⟨rfl, rfl, Nat.zero_le _, fun y _ hy hu => absurd (h0 y hy) hu, h, rfl⟩

/-- `moving` with another context for axis 5. -/
def five (c : AxisCtx) : State := setCtx 5 c moving

theorem witness_ScreeningTouchesOneAxis : Screens busy 5 .screenConsoleRecord (some 10006000) unnamed :=
  takes5 _ rfl (by decide +kernel)

theorem witness_IdleScreeningChangesOutcomeOnly :
    (∃ cmd req e, Screens (screening unnamed (five (ctx .locating none 0))) 5 cmd req e) ∧
    (ctxOf (screening unnamed (five (ctx .locating none 0))) 5).state = .locating ∧
    (ctxOf (screening unnamed (five (ctx .parked (some 2000000) 0))) 5).state = .parked ∧
    (ctxOf (screening unnamed (five (ctx .faulted none 0))) 5).state = .faulted ∧
    (ctxOf (screening unnamed (five (ctx .held (some 2000000) 0))) 5).state = .held :=
  ⟨⟨_, _, _, Screens.unnamed _ (reaches5 false _ (by decide +kernel) (by decide +kernel))⟩, by decide +kernel⟩

/-- Axis 5 HELD, armed, and asked for a position 6,000 away (section 3.8.2). -/
def armed : State := screening (hand ask5) (five { ctx .held (some 10000000) 0 with capture := true })

theorem captures : MayCapture armed 5 body 10000000 10006000 := by
  refine ⟨⟨_, rfl, by decide⟩, by decide +kernel, ?_, by decide⟩
  rintro ⟨l, b, h, _⟩
  have : tget armed.lineTab l = { body := none, locked := false } := lineTab_busy l
  rw [this] at h
  cases h

theorem witness_PassedCandidateIsTaken :
    Screens armed 5 .screenConsoleRecord (some 10006000) unnamed ∧ bodyOf armed 5 = some body ∧
    (ctxOf armed 5).pos = some 10000000 ∧ ComputesCandidate armed 5 body 10000000 10006000 ∧
    verdictOf armed 5 body 10000000 10006000 = none ∧ ComputesCandidate busy 5 body 10000000 10006000 ∧
    verdictOf busy 5 body 10000000 10006000 = none :=
  ⟨takes5 _ rfl (by decide +kernel), by decide +kernel, by decide +kernel, .inr ⟨by decide +kernel, captures⟩,
    by decide +kernel, .inl (by decide +kernel), by decide +kernel⟩

/-- Axis 6, PARKED, crowned to within the gap of axis 5. -/
def crowned (s : State) : State := setCtx 6 (ctx .parked (some 9000000) 0) s

theorem witness_RefusedCandidateIsDiscarded :
    Screens (crowned busy) 5 .screenConsoleRecord (some 10006000) unnamed ∧ bodyOf (crowned busy) 5 = some body ∧
    (ctxOf (crowned busy) 5).pos = some 10000000 ∧ verdictOf nearLimit 5 body 23550000 23556000 = some .limit ∧
    verdictOf (screening (hand ask5) (five { ctx .held (some 10000000) 0 with capture := true })) 5 body 10000000
      10400000 = some .diverged :=
  ⟨takes5 _ rfl (by decide +kernel), by decide +kernel, by decide +kernel, by decide +kernel, by decide +kernel⟩

theorem witness_StoppedAxesTakeRampSteps :
    ReachesAxis (screening { unnamed with synthesised := true } moving) { unnamed with synthesised := true } 5 ∧
    ReachesAxis (screening { unnamed with synthesised := false } moving) { unnamed with synthesised := false } 5 ∧
    bodyOf (screening unnamed moving) 5 = some body ∧ (ctxOf (screening unnamed moving) 5).pos = some 10000000 ∧
    (ctxOf (screening unnamed moving) 5).state = .tracking ∧ rampStep body.sdec 40 = 0 ∧ rampStep body.sdec 41 ≠ 0 ∧
    (ctxOf (screening unnamed (five { ctx .stopping (some 10000000) 40 with dest := some .parked })) 5).dest = some .parked :=
  ⟨reaches5 true _ (by decide +kernel) (by decide +kernel), reaches5 false _ (by decide +kernel) (by decide +kernel),
    by decide +kernel, by decide +kernel, by decide +kernel, by decide +kernel, by decide +kernel, by decide +kernel⟩

theorem witness_CandidateFollowsClamps : body.InRange ∧ (0 : Int) ≤ 0 ∧
    (40 - body.amax ≤ 60 ∧ 60 ≤ 40 + body.amax) ∧ (19 < 40 - body.amax ∧ 40 + body.amax < 61) ∧
    (1000 < mag 6000 ∧ sgn 6000 = sgn 6000 ∧ 1000 < mag 1001) ∧ ¬ (sgn 6000 = sgn 0 ∧ 1000 < mag 0) :=
  ⟨inRange_body, by decide⟩

theorem witness_StoppingDistanceSumsRampSteps : (1 : Int) ≤ 40 ∧ (0 : Int) ≤ 0 ∧ (39 : Int) < 40 ∧ (20000 : Int) ≤ 20000 := by
  decide

theorem witness_StepChangeIsAtMostSdec : Lawful busy ∧ Screens busy 5 .screenConsoleRecord (some 10006000) unnamed ∧
    bodyOf busy 5 = some body ∧ (ctxOf busy 5).state.inCue = true ∧ ∃ t, exec .screenConsoleRecord busy = .next t :=
  ⟨test_busy_lawful, takes5 _ rfl (by decide +kernel), by decide +kernel, by decide +kernel, _, rfl⟩

theorem witness_SeparationOfPairRule : body.InRange ∧ (0 ≤ (32000000 : Int) ∧ mag (-20000) ≤ 20000) ∧
    rule.upper = 5 ∧ rule.lower = 6 ∧ bodyOf busy 6 = some body ∧ (ctxOf busy 6).pos = some 2000000 ∧
    (ctxOf busy 6).state = .parked ∧ (ctxOf busy 5).state = .tracking ∧ (ctxOf busy 5).pos = some 10000000 ∧
    (ctxOf busy 7).state = .unconfigured :=
  ⟨inRange_body, by decide +kernel⟩

theorem witness_ScreeningKeepsPairLaw : Lawful busy ∧ Screens busy 5 .screenConsoleRecord (some 10006000) unnamed ∧
    (tget busy.pairTab 0).body = some rule ∧ rule.upper = 5 ∧ (ctxOf busy rule.upper).state.inCue = true ∧
    (ctxOf busy rule.lower).state = .parked :=
  ⟨test_busy_lawful, takes5 _ rfl (by decide +kernel), by decide +kernel⟩

theorem witness_PlacedRecordJoinsOutstandingList (n : Nat) (c : AxisCtx) :
    (listed n c).engine = some placing ∧ placing.todo = [] ∧ AllScreened (listed n c) placing ∧
    placing.fixed = [{ axis := 5, cmd := .follow, pos := some 10000000, step := 6000 }] :=
  ⟨rfl, rfl, allScreened_of_end rfl _, rfl⟩

theorem witness_PlacedRecordJoinsOutstandingList_clauses :
    (ctxOf (listed 0 AxisCtx.cleared) 5).state = .unconfigured ∧
    (ctxOf (listed 3 (ctxOf moving 5)) 5).outstanding.length < (listed 3 (ctxOf moving 5)).settings.lagDepth ∧
    (ctxOf (listed 4 (ctx .faulted none 0)) 5).outstanding.length = (listed 4 (ctx .faulted none 0)).settings.lagDepth ∧
    (ctxOf (listed 4 (ctx .faulted none 0)) 5).state = .faulted ∧
    (listed 4 (ctxOf moving 5)).settings.lagDepth ≤ (ctxOf (listed 4 (ctxOf moving 5)) 5).outstanding.length := by
  decide +kernel

/-- A state in which neither block has judged an axis yet. -/
theorem not_faultedNow {s : State} (h : s.judged = none) (j : Judge) (x : Axis) (found : AxisCtx) : ¬ FaultedNow s j x found := by
  rintro ⟨hj, _⟩
  rw [h] at hj
  cases hj

theorem witness_FaultedNow_none (n : Nat) (c : AxisCtx) (r : FeedbackRecord) (b : AxisBody) :
    (∀ found, ¬ FaultedNow (listed n c) .monitor 5 found) ∧ ∀ found, ¬ FaultedNow (heardFrom r b c moving) .engine 5 found :=
  ⟨not_faultedNow rfl _ _, not_faultedNow rfl _ _⟩

theorem witness_FaultsJudgedTogetherAreFurtherFaults_append :
    struck.engine = some placing ∧ placing.todo = [] ∧ AllScreened struck placing ∧
    placing.fixed = [{ axis := 5, cmd := .follow, pos := some 10000000, step := 6000 }] ∧
    FaultedNow struck .monitor 5 (ctxOf (crowded broken) 5) ∧
    struck.settings.lagDepth ≤ (ctxOf (crowded broken) 5).outstanding.length :=
  ⟨by decide +kernel, rfl, allScreened_of_end rfl _, rfl, ⟨by decide +kernel, by decide +kernel, by decide +kernel⟩,
    by decide +kernel⟩

theorem witness_FaultsJudgedTogetherAreFurtherFaults_next :
    PlacesNext (crowded broken) 5 ∧ ¬ PlacesNext State.reset 5 ∧ ChecksNext (crowded broken) 5 ∧ ¬ ChecksNext State.reset 5 :=
  ⟨(placedNext_iff _ _).1 (by decide +kernel), fun h => absurd ((placedNext_iff _ _).2 h) (by decide +kernel),
    (checkedNext_iff _ _).1 (by decide +kernel), fun h => absurd ((checkedNext_iff _ _).2 h) (by decide +kernel)⟩

theorem witness_FaultsJudgedTogetherAreFurtherFaults_record (r : FeedbackRecord) (h : r = broken ∨ r = { broken with ack := 9 }) :
    (overrun r).fb.frames = [[r]] ∧ r.axis.toNat = (5 : Axis).val ∧ 5 ∉ (overrun r).fb.taken ∧
    FaultedNow (overrun r) .engine 5 (ctxOf (crowded r) 5) ∧ bodyOf (overrun r) 5 = some body ∧
    (ctxOf (crowded r) 5).outstanding = [] ++ { seq := 0, pos := none, cmd := .holdBrake } :: (waiting 4).tail ∧
    (r.ack = 0 ∨ ∀ m ∈ (ctxOf (crowded r) 5).outstanding, m.seq ≠ r.ack) := by
  rcases h with rfl | rfl <;>
    exact ⟨by decide +kernel, by decide +kernel, by decide +kernel, ⟨by decide +kernel, by decide +kernel, by decide +kernel⟩,
      by decide +kernel, by decide +kernel, by decide +kernel⟩

theorem witness_FaultTakenFreezesAxis : TareLawful busy ∧ OutputsFollow busy ∧ (ctxOf busy 7).state = .unconfigured ∧
    (ctxOf busy 5).state = .tracking ∧ (ctxOf busy 5).pos = some 10000000 ∧ (ctxOf busy 6).state = .parked :=
  ⟨test_busy_lawful.tare, test_busy_lawful.outputs, by decide +kernel⟩

theorem witness_UnmatchedFeedbackIsIgnored :
    (heardFrom fb5 body (ctxOf moving 5) moving).fb.frames = [[fb5]] ∧ fb5.axis.toNat = (5 : Axis).val ∧
    5 ∉ (heardFrom fb5 body (ctxOf moving 5) moving).fb.taken ∧
    (∀ m ∈ (ctxOf (heardFrom fb5 body (ctxOf moving 5) moving) 5).outstanding,
      m.seq ≠ ({ fb5 with ack := 1 } : FeedbackRecord).ack) ∧
    128 ≤ ({ fb5 with axis := 128 } : FeedbackRecord).axis.toNat := by decide +kernel

/-- The record of `heardFrom` matches the one entry of the list. -/
theorem matches5 (r : FeedbackRecord) (b : AxisBody) (c : AxisCtx) (s : State) (ha : r.axis = 5) (hk : r.ack = 0)
    (hc : c.state ≠ .unconfigured) :
    MatchesEntry (heardFrom r b c s) r [] [] 5 [] { seq := 0, pos := some 10000000, cmd := .follow } [] := by
  have hctx : ctxOf (heardFrom r b c s) 5 =
      { c with outstanding := [{ seq := 0, pos := some 10000000, cmd := .follow }] } := tget_tset_same _ _ _
  refine ⟨rfl, by rw [ha]; rfl, ?_, by simp [heardFrom], ?_, hk.symm, by simp⟩
  · rw [hctx]; exact hc
  · rw [hctx]; rfl

theorem witness_MatchedFeedbackIsChecked :
    MatchesEntry (heardFrom fb5 body (ctx .locating none 0) moving) fb5 [] [] 5 []
      { seq := 0, pos := some 10000000, cmd := .follow } [] ∧
    (ctxOf (heardFrom fb5 body (ctx .faulted none 0) moving) 5).state = .faulted ∧
    bodyOf (heardFrom fb5 body (ctx .locating none 0) moving) 5 = some body ∧ body.load = none :=
  ⟨matches5 _ _ _ _ rfl rfl (by decide), by decide +kernel⟩

theorem witness_LoadIsRecordedAndOverloadFaults :
    MatchesEntry (heardFrom fb5 withCell (ctx .held (some 10000000) 0) moving) fb5 [] [] 5 []
      { seq := 0, pos := some 10000000, cmd := .follow } [] ∧
    bodyOf (heardFrom fb5 withCell (ctx .held (some 10000000) 0) moving) 5 = some withCell ∧ withCell.load = some cell ∧
    (ctxOf (heardFrom fb5 withCell (ctx .held (some 10000000) 0) moving) 5).state = .held ∧
    MatchesEntry (heardFrom { fb5 with rawLoad := 32767 } withCell (ctx .locating none 0) moving) { fb5 with rawLoad := 32767 }
      [] [] 5 [] { seq := 0, pos := some 10000000, cmd := .follow } [] ∧ cell.overload < rawToLoad cell 32767 ∧
    findings { fb5 with rawLoad := 32767 } { seq := 0, pos := some 10000000, cmd := .follow } withCell
      (ctxOf (heardFrom { fb5 with rawLoad := 32767 } withCell (ctx .locating none 0) moving) 5) = [] ∧
    (ctxOf (heardFrom { fb5 with rawLoad := 32767 } withCell (ctx .locating none 0) moving) 5).pos = none ∧
    (heardFrom { fb5 with rawLoad := 32767 } withCell (ctx .locating none 0) moving).tare = none :=
  ⟨matches5 _ _ _ _ rfl rfl (by decide), by decide +kernel, by decide +kernel, by decide +kernel,
    matches5 _ _ _ _ rfl rfl (by decide), by decide +kernel⟩

/-- The state of `landing` once its load has been taken. -/
def loadedLanding : State :=
  loadTaken 5 cell 12288 (stepsTaken 5 { fb5 with rawLoad := 12288 } { seq := 0, pos := some 10000000, cmd := .follow } withCell
    (ctxOf landing 5) (recordMatched 5 { fb5 with rawLoad := 12288 } [] [] [] landing))

theorem witness_SlackAndSnagStopTracking :
    MatchesEntry landing { fb5 with rawLoad := 12288 } [] [] 5 [] { seq := 0, pos := some 10000000, cmd := .follow } [] ∧
    (ctxOf landing 5).state = .tracking ∧ (ctxOf landing 5).step < 0 ∧ (ctxOf loadedLanding 5).state = .tracking ∧
    (ctxOf loadedLanding 5).filtered = some 17412 ∧ ¬ (17412 : Int) < cell.slack ∧ cell.snagBand < mag (17412 - 19212) ∧
    1999 < cell.slack ∧ ¬ cell.snagBand < mag (19212 - 20712) :=
  ⟨matches5 _ _ _ _ rfl rfl (by decide), by decide +kernel⟩

theorem witness_TareSamplesCompleteAtSixteen :
    MatchesEntry (taring 15) { fb5 with rawLoad := 2049 } [] [] 5 [] { seq := 0, pos := some 10000000, cmd := .follow } [] ∧
    (ctxOf (taring 15) 5).state = .parked ∧ bodyOf (taring 15) 5 = some withCell ∧
    (taring 15).tare = some { axis := 5, stage := 1, count := 15, sum := 30720 } ∧
    findings { fb5 with rawLoad := 2049 } { seq := 0, pos := some 10000000, cmd := .follow } withCell (ctxOf (taring 15) 5) = [] ∧
    rawToLoad cell 2049 ≤ cell.overload :=
  ⟨matches5 _ _ _ _ rfl rfl (by decide), by decide +kernel⟩

theorem witness_LineLevelsSettle : (tget State.reset.lines 2).raw = .low ∧
    (tget (after .powerOnReset State.reset).lines 2).settled = .known .low ∧
    (tget (after (.interlockRawChange 5 2 .high) busy).lines 2).raw = .high ∧
    (tget (after (.interlockRawChange 5 2 .high) busy).lines 2).settled ≠ .known .low ∧
    (tget State.reset.lines 2).pending = some .low ∧ (tget State.reset.lineTab 2).body = none ∧
    (tget { State.reset with lineTab := tset State.reset.lineTab 2 { body := some lineBody, locked := false } }.lineTab 2).body =
      some lineBody ∧ 0 < lineBody.settleTime := by decide +kernel

/-- A full queue of events of class 6. -/
def fullUnit : EventUnit :=
  { State.reset.ev with queue := List.replicate 32 { event := .strayFeedback 0 0, count := 1 } }

theorem witness_EventUnitTakesEvents : fullUnit.Lawful ∧ State.reset.ev.Lawful ∧
    fullUnit.queue.getLast? = some { event := .strayFeedback 0 0, count := 1 } ∧
    (QueuedEvent.rank { event := .axisLocated 0 0, count := 1 } = 7 ∧
      QueuedEvent.rank { event := .strayFeedback 0 0, count := 1 } = 6 ∧
      QueuedEvent.rank { event := .frameEarly 0, count := 1 } = 5) ∧
    { State.reset.ev with mask := 127 }.mask.getLsbD ((Event.axisLocated 0 0).cls.number - 1) = true ∧
    tget State.reset.ev.latches 0 = none := by
  refine ⟨?_, test_busy_lawful.events, by decide +kernel, by decide, by decide, tget_replicate _ _⟩
  constructor
  · decide
  · decide +kernel
  · decide +kernel
  · intro k q hq
    have : tget fullUnit.latches k = none := tget_replicate _ _
    rw [this] at hq
    cases hq

theorem witness_ReportTimerBuildsReport : moving.up.slot = none ∧
    (sending moving.down { tx := none, queue := [], slot := some (reportFrame moving) } moving).up.slot ≠ none := by
  decide +kernel

theorem witness_RequestIsAnsweredOnce : FrontRequest (req 21 []) [] [] (asked 21 [] busy) ∧
    FrontRequest (req 8 []) [] [] (asked 8 [] State.reset) ∧ ¬ (1 ≤ (req 21 []).kind.toNat ∧ (req 21 []).kind.toNat ≤ 20) :=
  ⟨rfl, rfl, by decide⟩

theorem not_moving_reset (s : State) (h : anyMoving s = false) : ¬ Moving s := by
  rw [← anyMoving_iff, h]; decide

theorem witness_ModeRequestJudged : FrontRequest (req 1 [2]) [] [] (asked 1 [2] busy) ∧ busy.req.mode = .inShow ∧
    Moving busy ∧ ¬ Moving State.reset ∧ (inCommission State.reset).req.mode = .commission ∧ (taring 3).tare ≠ none ∧
    ¬ Moving (taring 3) ∧ (3 : Byte) ≠ 1 ∧ (3 : Byte) ≠ 2 :=
  ⟨rfl, rfl, ⟨5, .inl (by decide +kernel)⟩, not_moving_reset _ (by decide +kernel), rfl, by decide +kernel,
    not_moving_reset _ (by decide +kernel), by decide, by decide⟩

theorem witness_ReadsAnswerWhatStands : FrontRequest (req 2 [1, 0, 127]) [] [] (asked 2 [1, 0, 127] busy) ∧
    (127 : Axis).val = (word16 0 127).toNat ∧ 128 ≤ (word16 0 128).toNat ∧ (511 : PairIndex).val = (word16 1 255).toNat ∧
    512 ≤ (word16 2 0).toNat ∧ (15 : Line).val = (word16 0 15).toNat ∧ 16 ≤ (word16 0 16).toNat ∧
    FrontRequest (req 3 [127]) [] [] (asked 3 [127] busy) ∧ FrontRequest (req 4 []) [] [] (asked 4 [] busy) ∧
    FrontRequest (req 0 []) [] [] (asked 0 [] busy) :=
  ⟨rfl, by decide, by decide, by decide, by decide, by decide, by decide, rfl, rfl, rfl⟩

theorem witness_SetMaskOffersLatchedEvents : FrontRequest (req 5 [0]) [] [] (asked 5 [0] busy) := rfl

theorem witness_HaltStopsAndDisarms : FrontRequest (req 6 [1, 127]) [] [] (asked 6 [1, 127] busy) ∧
    decodeAxisList [1, 127] = .ok (.numbers [127]) ∧ decodeAxisList [1, 128] = .ok (.numbers [128]) ∧
    (AxisList.numbers [128]).toSet = none ∧ (AxisList.numbers [127]).toSet = some (.list [127]) ∧
    decodeAxisList [255] = .ok .all := ⟨rfl, rfl, rfl, by decide +kernel, by decide +kernel, rfl⟩

theorem witness_ClearTareAndUntareJudged : FrontRequest (req 7 [5]) [] [] (asked 7 [5] busy) ∧ 128 ≤ (128 : Byte).toNat ∧
    busy.req.mode ≠ .commission ∧ (ctxOf busy 5).state ≠ .faulted ∧ (ctxOf (five (ctx .faulted none 0)) 5).state = .faulted ∧
    bodyOf busy 5 = some body ∧ bodyOf (taring 3) 5 = some withCell ∧ (ctxOf (taring 3) 5).state = .parked ∧
    (taring 3).tare ≠ none ∧ { taring 3 with tare := none }.tare = none ∧
    (ctxOf (heardFrom fb5 withCell (ctx .held (some 10000000) 0) (inCommission State.reset)) 5).state ≠ .parked :=
  ⟨rfl, by decide +kernel⟩

theorem witness_RestartReturnsEveryOwner : FrontRequest (req 8 []) [] [] (asked 8 [] busy) ∧ Moving (asked 8 [] busy) ∧
    ¬ Moving (asked 8 [] State.reset) :=
  ⟨rfl, ⟨5, .inl (by decide +kernel)⟩, not_moving_reset _ (by decide +kernel)⟩

theorem witness_PutAxisJudgedAndWritten : FrontRequest (req 11 (6 :: body.bytes)) [] [] (asked 11 (6 :: body.bytes) busy) ∧
    decodePutAxis (6 :: body.bytes) = .ok (6, body) ∧ decodePutAxis (128 :: body.bytes) = .ok (128, body) ∧
    decodePutAxis [] = .error 0 ∧ Protected busy (tget busy.axisTab 6).locked ∧ ¬ Protected busy (tget busy.axisTab 7).locked ∧
    firstBad { body with upper := 1000000 }.checks = some 2 ∧ body.InRange ∧ (ctxOf busy 5).state.inCue = true ∧
    (ctxOf busy 6).state.inCue = false ∧ (ctxOf busy 6).pos = some 2000000 ∧ (taring 3).tare ≠ none := by
  refine ⟨rfl, by decide +kernel, by decide +kernel, rfl, ⟨rfl, by decide +kernel⟩, ?_, by decide +kernel, inRange_body,
    by decide +kernel, by decide +kernel, by decide +kernel, by decide +kernel⟩
  rintro ⟨_, h⟩
  exact absurd h (by decide +kernel)

theorem witness_PairAndInterlockPutsJudged :
    FrontRequest (req 9 ([0, 1] ++ rule.bytes)) [] [] (asked 9 ([0, 1] ++ rule.bytes) busy) ∧
    decodePutPair ([0, 1] ++ rule.bytes) = .ok (1, { upper := 5, lower := 6, gap := 1000000, warn := 100000 }) ∧
    Protected busy (tget busy.pairTab 0).locked ∧ ¬ Protected busy (tget busy.pairTab 511).locked ∧
    firstBad { upper := 5, lower := 5, gap := 0, warn := 0 : PairFields }.checks = some 2 ∧
    firstBad { upper := 5, lower := 6, gap := 1000000, warn := 100000 : PairFields }.checks = none ∧
    FrontRequest (req 10 [15, 1, 1, 0, 0, 20, 255]) [] [] (asked 10 [15, 1, 1, 0, 0, 20, 255] busy) ∧
    decodePutInterlock [15, 1, 1, 0, 0, 20, 255] =
      .ok (15, { level := 1, action := 1, cap := 0, settleTime := 20, axes := .all }) ∧
    firstBad { level := 1, action := 1, cap := 0, settleTime := 20, axes := .all : InterlockFields }.checks = none ∧
    firstBad { level := 2, action := 1, cap := 0, settleTime := 20, axes := .all : InterlockFields }.checks = some 1 := by
  refine ⟨rfl, rfl, ⟨rfl, by decide +kernel⟩, ?_, by decide +kernel, by decide +kernel, rfl, rfl, by decide +kernel,
    by decide +kernel⟩
  rintro ⟨_, h⟩
  exact absurd h (by decide +kernel)

theorem witness_ErasesJudgedAndErased : FrontRequest (req 12 [1, 0, 5]) [] [] (asked 12 [1, 0, 5] busy) ∧
    (5 : Axis).val = (word16 0 5).toNat ∧ Protected busy (tget busy.axisTab 5).locked ∧ bodyOf busy 7 = none ∧
    bodyOf (inCommission busy) 6 ≠ none ∧ (ctxOf (inCommission busy) 6).state.inCue = false ∧
    (ctxOf (inCommission busy) 5).state.inCue = true ∧ (tget busy.pairTab 1).body = none ∧
    (tget (inCommission busy).pairTab 0).body ≠ none ∧ (tget busy.lineTab 15).body = none ∧ (taring 3).tare ≠ none :=
  ⟨rfl, rfl, ⟨rfl, by decide +kernel⟩, by decide +kernel⟩

theorem witness_PutSettingsJudgedAndWritten :
    FrontRequest (req 13 Settings.initial.bytes) [] [] (asked 13 Settings.initial.bytes busy) ∧
    decodeSettings Settings.initial.bytes = .ok Settings.initial ∧ busy.req.mode ≠ .commission ∧
    (inCommission State.reset).req.mode = .commission ∧ firstBad { Settings.initial with grace := 6 }.checks = some 3 ∧
    Settings.initial.InRange ∧ SomeInCue (inCommission busy) ∧ ¬ SomeInCue (inCommission State.reset) := by
  refine ⟨rfl, by decide +kernel, by decide +kernel, rfl, by decide +kernel, witness_BodiesReadBackAsWritten.2.2.2,
    ⟨5, by decide +kernel⟩, ?_⟩
  rw [← someInCue_iff]
  decide +kernel

theorem witness_LockAndUnlockWriteFlagOnly : FrontRequest (req 14 [2, 0, 0]) [] [] (asked 14 [2, 0, 0] busy) ∧
    busy.req.mode ≠ .commission ∧ (inCommission busy).req.mode = .commission ∧ 127 < (word16 0 128).toNat ∧
    511 < (word16 2 0).toNat ∧ 15 < (word16 0 16).toNat ∧ (tget busy.axisTab 7).body = none ∧
    (tget busy.axisTab 5).body ≠ none ∧ (tget busy.pairTab 1).body = none ∧ (tget busy.pairTab 0).body ≠ none ∧
    (tget busy.lineTab 15).body = none := ⟨rfl, by decide +kernel⟩

theorem witness_StageCueJudgedAndStaged : FrontRequest (req 18 [0, 52, 1, 6]) [] [] (asked 18 [0, 52, 1, 6] busy) ∧
    decodeCue [0, 52, 1, 6] = .ok (52, .numbers [6]) ∧ State.reset.req.mode = .start ∧ busy.req.mode ≠ .start ∧
    (AxisList.numbers [128]).toSet = none ∧ (AxisList.numbers [6]).toSet = some (.list [6]) ∧ busy.staged = none ∧
    { busy with staged := some { number := 1, axes := [] } }.staged ≠ none ∧ (ctxOf busy 7).state = .unconfigured ∧
    (ctxOf (five (ctx .locating none 0)) 5).state = .locating ∧ (ctxOf (five (ctx .faulted none 0)) 5).state = .faulted ∧
    (∀ x, x ∈ AxisSet.members (.list [6]) → (ctxOf busy x).state = .parked ∨ (ctxOf busy x).state.inCue = true) :=
  ⟨rfl, by decide +kernel⟩

theorem witness_DropCueEmptiesStagedSlot : FrontRequest (req 20 []) [] [] (asked 20 [] busy) ∧
    (asked 20 [] State.reset).req.mode = .start ∧ (asked 20 [] busy).req.mode = .inShow := ⟨rfl, rfl, rfl⟩

theorem witness_TakeCueHandsOver : FrontRequest (req 19 []) [] [] (asked 19 [] busy) ∧
    (asked 19 [] State.reset).req.mode = .start ∧ (asked 19 [] busy).req.mode ≠ .start ∧ (asked 19 [] busy).staged = none ∧
    (asked 19 [] { busy with staged := some { number := 52, axes := [6] } }).staged = some { number := 52, axes := [6] } :=
  ⟨rfl, rfl, by decide, rfl, rfl⟩

/-- An interlock body with an action for every axis. -/
def everyAxis (act : Action) : InterlockBody := { activeLevel := .high, action := act, axes := .all, settleTime := 0 }

/-- `s` with an entry of an action for every axis on line 0, which is UNSETTLED. -/
def acting (act : Action) (s : State) : State :=
  { s with lineTab := tset s.lineTab 0 { body := some (everyAxis act), locked := false } }

theorem no_bears (s : State) (x : Axis) (a : Action) (h : a ∉ actionsOn s x) : ¬ Bears s x a := fun hb =>
  h ((bears_iff s x a).mpr hb)

theorem witness_CandidateChecksInOrder : Bears (acting .halt moving) 5 .halt ∧ ¬ Bears moving 5 .halt ∧
    body.trackWin < mag (10206001 - 10006000) ∧ ¬ body.trackWin < mag (10206000 - 10006000) ∧
    ((5960 : Int) > 0 ∧ Bears (acting .noUp moving) 5 .noUp ∧ ¬ Bears (acting .noUp moving) 5 .halt) ∧
    ((-1 : Int) < 0 ∧ Bears (acting .noDown moving) 5 .noDown) ∧ ¬ Bears (acting .noDown moving) 5 .noUp ∧
    body.upper < projection body.sdec ⟨23556000, 6000⟩ ∧ ¬ body.upper < projection body.sdec ⟨23555980, 5980⟩ ∧
    RefusedByRule (crowned moving) 5 body ⟨10000000, 0⟩ ⟨9999980, -20⟩ 0 ∧
    (∀ i, ¬ RefusedByRule State.reset 5 body ⟨10000000, 0⟩ ⟨9999980, -20⟩ i) := by
  refine ⟨(bears_iff _ _ _).mp (by decide +kernel), no_bears _ _ _ (by decide +kernel), by decide, by decide,
    ⟨by decide, (bears_iff _ _ _).mp (by decide +kernel), no_bears _ _ _ (by decide +kernel)⟩,
    ⟨by decide, (bears_iff _ _ _).mp (by decide +kernel)⟩, no_bears _ _ _ (by decide +kernel), by decide +kernel,
    by decide +kernel, ⟨rule, ⟨-2200000, -2200020⟩, by decide +kernel, by decide +kernel, by decide, by decide⟩, ?_⟩
  rintro i ⟨r, q, h, _⟩
  have : tget State.reset.pairTab i = { body := none, locked := false, warning := false } := tget_replicate _ _
  rw [this] at h
  cases h

theorem witness_RangeChecksFollowTables : firstBad body.checks = none ∧ firstBad { body with vmax := 20001 }.checks = some 3 ∧
    firstBad Settings.initial.checks = none ∧
    firstBad { upper := 5, lower := 6, gap := 1000000, warn := 100000 : PairFields }.checks = none ∧
    ({ upper := 5, lower := 6, gap := 1000000, warn := 100000 } : PairFields).body = some rule ∧ rule.InRange ∧
    firstBad { level := 1, action := 2, cap := 20000, settleTime := 255, axes := .all : InterlockFields }.checks = none ∧
    ({ level := 1, action := 2, cap := 20000, settleTime := 255, axes := .numbers [127, 0, 127] } : InterlockFields).body =
      some lineBody ∧ lineBody.InRange :=
  ⟨by decide +kernel, by decide +kernel, by decide +kernel, by decide +kernel, by decide +kernel,
    witness_BodiesReadBackAsWritten.2.1, by decide +kernel, by decide +kernel, witness_BodiesReadBackAsWritten.2.2.1⟩

/-- Which field number a failing check names (R11, R68, R91, R172). -/
theorem test_first_failing_field :
    firstBad { body with upper := 1000000, vmax := 0 }.checks = some 2 ∧ firstBad { body with amax := 6001 }.checks = some 4 ∧
    firstBad { body with sdec := 19 }.checks = some 5 ∧
    firstBad { body with load := some { cell with slack := 25000 } }.checks = some 14 ∧
    firstBad { upper := 5, lower := 5, gap := 0, warn := 0 : PairFields }.checks = some 2 ∧
    firstBad { level := 1, action := 1, cap := 20001, settleTime := 256, axes := .all : InterlockFields }.checks = some 5 ∧
    firstBad { Settings.initial with grace := 6 }.checks = some 3 := by decide +kernel

/-- Whether an outcome is a next state. -/
def isNext : Host.Outcome State Fault Refusal → Bool
  | .next _ => true
  | _ => false

/-- The premises of the invariants hold of `busy`, and a step of it answers a next state. -/
theorem witness_invariants : Lawful busy ∧ isNext (step busy) = true := ⟨test_busy_lawful, by decide +kernel⟩

theorem witness_ShowKeepsLockedEntries : TareLawful busy ∧ busy.req.mode = .inShow ∧ (tget busy.axisTab 5).locked = true ∧
    (tget busy.pairTab 0).locked = true ∧ isNext (exec .screenConsoleRecord busy) = true :=
  ⟨test_busy_lawful.tare, by decide +kernel⟩

end Sys2Proof.Tests
end

section
/-! SUPPORT. The effective cap of a screening as the least of its terms (R49). -/

namespace Sys2Proof.Machine

/-- The minimum taken along a list is the least of the starting value and the list's members. -/
theorem isLeast_foldl_min (l : List Int) (a : Int) : IsLeast { v | v = a ∨ v ∈ l } (l.foldl min a) := by
  obtain ⟨hlist, hstart, hmem⟩ := foldl_min l a
  refine ⟨hmem, ?_⟩
  rintro v (rfl | hv)
  · exact hstart
  · exact hlist v hv

theorem action_cap_eq_some {act : Action} {v : Int} : act.cap = some v ↔ act = .slow v := by
  cases act <;> simp [Action.cap]

/-- The caps that the effective cap takes from the lines are those of the SLOW entries that bear on the axis. -/
theorem mem_slowCaps {s : State} {x : Axis} {v : Int} :
    v ∈ (actionsOn s x).filterMap Action.cap ↔ Bears s x (.slow v) := by
  simp [List.mem_filterMap, action_cap_eq_some, bears_iff]

theorem commissionCapApplies_iff {s : State} {x : Axis} : commissionCapApplies s x = true ↔
    s.req.mode = .commission ∨ s.req.mode = .inShow ∧ (tget s.axisTab x).locked = false := by
  simp [commissionCapApplies]

/-- The terms of the effective cap beside vmax. -/
def capTerms (s : State) (x : Axis) : List Int :=
  if commissionCapApplies s x then s.settings.commissionCap :: (actionsOn s x).filterMap Action.cap
  else (actionsOn s x).filterMap Action.cap

theorem effectiveCap_eq_foldl (s : State) (x : Axis) (b : AxisBody) :
    effectiveCap s x b = (capTerms s x).foldl min b.vmax := rfl

theorem mem_capTerms {s : State} {x : Axis} {v : Int} : v ∈ capTerms s x ↔
    Bears s x (.slow v) ∨ (v = s.settings.commissionCap ∧
      (s.req.mode = .commission ∨ s.req.mode = .inShow ∧ (tget s.axisTab x).locked = false)) := by
  rw [← commissionCapApplies_iff, ← mem_slowCaps]
  unfold capTerms
  split
  case isTrue h => simp only [List.mem_cons, h, and_true, or_comm]
  case isFalse h => exact (or_iff_left fun hc => h hc.2).symm

/-- Settles O21: the effective cap is the minimum along its list of terms, and the list holds just the terms of R49. -/
theorem effectiveCapIsLeastTerm : Obligations.EffectiveCapIsLeastTerm := by
  intro s x b
  rw [effectiveCap_eq_foldl]
  simpa only [mem_capTerms] using isLeast_foldl_min (capTerms s x) b.vmax

end Sys2Proof.Machine
end

section
/-! SUPPORT. The candidate of a screening: the acceleration clamp, the speed cap and the outcome (R48, R50, R51). -/

namespace Sys2Proof.Machine

/-! ## Magnitude and sign -/

theorem mag_eq_zero {x : Int} : mag x = 0 ↔ x = 0 := by
  unfold mag
  split <;> omega

theorem mag_sgn_mul {d m : Int} (hd : 0 < mag d) (hm : 0 ≤ m) : mag (sgn d * m) = m := by
  rcases lt_trichotomy d 0 with h | rfl | h
  · rw [sgn_of_neg h, neg_one_mul]
    unfold mag
    split <;> omega
  · simp at hd
  · rw [sgn_of_pos h, one_mul, mag_of_nonneg hm]

/-! ## The acceleration clamp (R48) -/

theorem accelClamp_of_mem {A v d : Int} (hlo : v - A ≤ d) (hhi : d ≤ v + A) : accelClamp A v d = d := by
  rw [accelClamp, bounded, if_neg hlo.not_gt, if_neg hhi.not_gt]

theorem accelClamp_of_lt {A v d : Int} (h : d < v - A) : accelClamp A v d = v - A := by
  rw [accelClamp, bounded, if_pos h]

theorem accelClamp_of_gt {A v d : Int} (hA : 0 ≤ A) (h : v + A < d) : accelClamp A v d = v + A := by
  rw [accelClamp, bounded, if_neg (by omega), if_pos h]

/-- The acceleration clamp takes at most `A` off the magnitude of the step before it. -/
theorem mag_sub_le_mag_accelClamp {A v d : Int} (hA : 0 ≤ A) : mag v - A ≤ mag (accelClamp A v d) := by
  obtain ⟨hlo, hhi⟩ := accelClamp_range (v := v) (d := d) hA
  unfold mag
  split <;> split <;> omega

/-! ## The speed cap (R50) -/

theorem speedCap_of_le {S cap v d : Int} (h : mag d ≤ cap) : speedCap S cap v d = d := by
  rw [speedCap, if_pos h]

/-- Above the cap and in the direction of travel the step descends by the stopping deceleration. -/
theorem speedCap_of_descent {S cap v d : Int} (h : cap < mag d) (hs : sgn d = sgn v) (hv : cap < mag v) :
    speedCap S cap v d = sgn d * max cap (mag v - S) := by
  rw [speedCap, if_neg h.not_ge, if_pos ⟨hs, hv⟩]

/-- Where there is no speed above the cap to descend from, the step is cut to the cap. -/
theorem speedCap_of_cut {S cap v d : Int} (h : cap < mag d) (hv : ¬ (sgn d = sgn v ∧ cap < mag v)) :
    speedCap S cap v d = sgn d * cap := by
  rw [speedCap, if_neg h.not_ge, if_neg hv]

/-- The magnitude of a capped step: kept, brought down by the stopping deceleration, or the cap. -/
theorem mag_speedCap_cases {S cap v d : Int} (hc : 0 ≤ cap) :
    mag (speedCap S cap v d) = mag d ∧ mag d ≤ cap ∨
    mag (speedCap S cap v d) = max cap (mag v - S) ∧ cap < mag d ∨
    mag (speedCap S cap v d) = cap ∧ cap < mag d := by
  by_cases h : mag d ≤ cap
  · exact .inl ⟨by rw [speedCap_of_le h], h⟩
  · have hlt : cap < mag d := not_le.mp h
    have hd : 0 < mag d := hc.trans_lt hlt
    by_cases hv : sgn d = sgn v ∧ cap < mag v
    · exact .inr (.inl ⟨by rw [speedCap_of_descent hlt hv.1 hv.2, mag_sgn_mul hd (by omega)], hlt⟩)
    · exact .inr (.inr ⟨by rw [speedCap_of_cut hlt hv, mag_sgn_mul hd hc], hlt⟩)

theorem mag_speedCap_le_mag {S cap v d : Int} (hc : 0 ≤ cap) (hd : mag v - S ≤ mag d) :
    mag (speedCap S cap v d) ≤ mag d := by
  rcases mag_speedCap_cases (S := S) (v := v) (d := d) hc with ⟨h, _⟩ | ⟨h, hlt⟩ | ⟨h, hlt⟩ <;> omega

theorem mag_speedCap_le_or_eq {S cap v d : Int} (hc : 0 ≤ cap) :
    mag (speedCap S cap v d) ≤ cap ∨ mag (speedCap S cap v d) = mag v - S := by
  rcases mag_speedCap_cases (S := S) (v := v) (d := d) hc with ⟨h, hle⟩ | ⟨h, _⟩ | ⟨h, _⟩ <;> omega

/-- From rest under a cap of 0 the step stays 0. -/
theorem speedCap_of_rest {S d : Int} (hS : 0 < S) : speedCap S 0 0 d = 0 := by
  have hle : mag (speedCap S 0 0 d) ≤ max 0 (mag 0) := mag_speedCap hS le_rfl
  have hnonneg := mag_nonneg (speedCap S 0 0 d)
  rw [mag_zero, max_self] at hle
  exact mag_eq_zero.mp (by omega)

/-! ## The candidate (R48, R50, R51) -/

theorem candidate_pos (b : AxisBody) (cap : Int) (prev : Motion) (req : Int) :
    (candidate b cap prev req).pos = prev.pos + (candidate b cap prev req).step := rfl

theorem candidate_step (b : AxisBody) (cap : Int) (prev : Motion) (req : Int) : (candidate b cap prev req).step =
    speedCap b.sdec cap prev.step (accelClamp b.amax prev.step (req - prev.pos)) := rfl

theorem candidateOutcome_pass {b : AxisBody} {prev cand : Motion} {req : Int} (h : cand.step = req - prev.pos) :
    candidateOutcome b prev cand req = .pass := by
  rw [candidateOutcome, if_pos h]

theorem candidateOutcome_clampAccel {b : AxisBody} {prev cand : Motion} {req : Int} (h : cand.step ≠ req - prev.pos)
    (ha : accelClamp b.amax prev.step (req - prev.pos) ≠ req - prev.pos) :
    candidateOutcome b prev cand req = .clampAccel := by
  rw [candidateOutcome, if_neg h, if_pos ha]

theorem candidateOutcome_clampSpeed {b : AxisBody} {prev cand : Motion} {req : Int} (h : cand.step ≠ req - prev.pos)
    (ha : accelClamp b.amax prev.step (req - prev.pos) = req - prev.pos) :
    candidateOutcome b prev cand req = .clampSpeed := by
  rw [candidateOutcome, if_neg h, if_neg (not_not.mpr ha)]

/-- Settles O20, from the cases of the two clamps; that a descent never exceeds the clamped step rests on amax ≤ sdec. -/
theorem candidateFollowsClamps : Obligations.CandidateFollowsClamps := by
  refine ⟨?_, fun b prev cand req =>
    ⟨candidateOutcome_pass, candidateOutcome_clampAccel, candidateOutcome_clampSpeed⟩⟩
  intro b cap prev req hb hcap dReq dA cand
  have hamax : 0 ≤ b.amax := zero_le_one.trans hb.amax.1
  have hsdec : 0 < b.sdec := zero_lt_one.trans_le (hb.amax.1.trans hb.sdec.1)
  have hdescent : mag prev.step - b.sdec ≤ mag dA :=
    (sub_le_sub_left hb.sdec.1 _).trans (mag_sub_le_mag_accelClamp hamax)
  have hrest (h0 : cap = 0) (hprev : prev.step = 0) : cand.step = 0 := by
    simpa only [cand, candidate_step, h0, hprev] using speedCap_of_rest hsdec
  exact ⟨fun h => accelClamp_of_mem h.1 h.2, accelClamp_of_lt, accelClamp_of_gt hamax, candidate_pos b cap prev req,
    speedCap_of_le, speedCap_of_descent, speedCap_of_cut, mag_speedCap_le_mag hcap hdescent,
    mag_speedCap_le_or_eq hcap, hrest⟩

end Sys2Proof.Machine
end

section
/-! SUPPORT. The stopping distance: its formula, its sum, its bound and its uses (R59, R60). -/

namespace Sys2Proof.Machine

/-! ## The stopping distance (R59) -/

/-- R59 as it is written, with the product by the deceleration under the halving. -/
theorem dStop_eq_formula (S v : Int) : dStop S v = v / S * v - S * (v / S) * (v / S + 1) / 2 := by
  have heven : (2 : Int) ∣ v / S * (v / S + 1) := (Int.even_mul_succ_self _).two_dvd
  rw [mul_assoc, Int.mul_ediv_assoc S heven]
  rfl

/-- `n` ramp steps taken off the stopping distance leave that of the step reached. -/
theorem dStop_eq_sum_add {S : Int} (hS : 0 < S) (v : Int) (n : Nat) :
    dStop S v = ((List.range n).map (fun k : Nat => v - ((k : Int) + 1) * S)).sum + dStop S (v - n * S) := by
  induction n with
  | zero => simp
  | succ n ih =>
    have hnext : v - n * S - S = v - ((n : Int) + 1) * S := by ring
    rw [ih, dStop_step hS, hnext, List.range_succ]
    simp [add_assoc]

/-- After `v / S` ramp steps the remainder is below `S`, so nothing of the distance is left. -/
theorem dStop_eq_sum {S v : Int} (hS : 0 < S) (hv : 0 ≤ v) :
    dStop S v = ((List.range (v / S).toNat).map (fun k : Nat => v - ((k : Int) + 1) * S)).sum := by
  have hrest : v - (v / S).toNat * S = v % S := by
    rw [Int.toNat_of_nonneg (Int.ediv_nonneg hv hS.le), mul_comm, Int.emod_def]
  have hzero : dStop S (v % S) = 0 := dStop_small (Int.emod_nonneg v hS.ne') (Int.emod_lt_of_pos v hS)
  rw [dStop_eq_sum_add hS v (v / S).toNat, hrest, hzero, add_zero]

/-- The stopping distance is greatest at `S = 1`, where it is the sum of the numbers below `v`. -/
theorem two_mul_dStop_le {S v : Int} (hS : 0 < S) (hv : 0 ≤ v) : 2 * dStop S v ≤ v * (v - 1) := by
  obtain ⟨n, hn⟩ : ∃ n : Nat, v < n := ⟨v.toNat + 1, by omega⟩
  induction n generalizing v with
  | zero => omega
  | succ n ih =>
    by_cases h : v < S
    · rw [dStop_small hv h]
      by_cases hv0 : v = 0
      · simp [hv0]
      · exact mul_nonneg hv (by omega)
    · have hnext : 2 * dStop S (v - S) ≤ (v - S) * (v - S - 1) := ih (by omega) (by omega)
      rw [dStop_step hS]
      calc 2 * (v - S + dStop S (v - S)) ≤ (v - S + 1) * (v - S) := by linarith
        _ ≤ v * (v - 1) := mul_le_mul (by omega) (by omega) (by omega) hv

theorem dStop_le_largest {S v : Int} (hS : 0 < S) (hv : 0 ≤ v) (hmax : v ≤ 20000) : dStop S v ≤ 199990000 := by
  have hdouble := two_mul_dStop_le hS hv
  have hbound : v * (v - 1) ≤ 20000 * 19999 := by nlinarith
  omega

/-! ## The uses of the stopping distance (R55, R73) -/

theorem projection_of_nonneg (S p : Int) {v : Int} (hv : 0 ≤ v) : projection S ⟨p, v⟩ = p + dStop S v := by
  rcases hv.eq_or_lt with rfl | hpos
  · simp [projection]
  · simp [projection, sgn_of_pos hpos, mag_of_nonneg hv]

theorem projection_neg_of_nonneg (S p : Int) {v : Int} (hv : 0 ≤ v) : projection S ⟨p, -v⟩ = p - dStop S v := by
  rcases hv.eq_or_lt with rfl | hpos
  · simp [projection]
  · have hneg : -v < 0 := neg_lt_zero.mpr hpos
    simp [projection, sgn_of_neg hneg, mag_of_neg hneg, sub_eq_add_neg]

theorem lowEdge_of_lowering (b : AxisBody) (p : Int) {v : Int} (hv : 0 < v) :
    lowEdge b ⟨p, -v⟩ = p - b.hang - dStop b.sdec v := by
  have hneg : -v < 0 := neg_lt_zero.mpr hv
  simp [lowEdge, hv, mag_of_neg hneg]

theorem highEdge_of_rising (b : AxisBody) (p : Int) {v : Int} (hv : 0 < v) :
    highEdge b ⟨p, v⟩ = p + b.crown + dStop b.sdec v := by
  simp [highEdge, hv]

theorem rampStep_eq_ite (S v : Int) :
    rampStep S v = if 0 < v then max 0 (v - S) else if v < 0 then -(max 0 (-v - S)) else 0 := by
  rcases lt_trichotomy v 0 with h | rfl | h
  · rw [if_neg h.not_gt, if_pos h, rampStep_of_neg h]
  · simp
  · rw [if_pos h, rampStep_of_pos h]

/-- Settles O23: the sum and the largest value follow by taking off one ramp step at a time. -/
theorem stoppingDistanceSumsRampSteps : Obligations.StoppingDistanceSumsRampSteps := by
  refine ⟨fun S v hS hv => ?_, fun S p v hS => ⟨rampStep_eq_ite S v, projection_ramp hS p v⟩⟩
  have hedges (b : AxisBody) (p : Int) (hb : b.sdec = S) (hpos : 0 < v) :
      lowEdge b ⟨p, -v⟩ = p - b.hang - dStop S v ∧ highEdge b ⟨p, v⟩ = p + b.crown + dStop S v :=
    hb ▸ ⟨lowEdge_of_lowering b p hpos, highEdge_of_rising b p hpos⟩
  exact ⟨dStop_eq_formula S v, (Int.even_mul_succ_self _).two_dvd, dStop_eq_sum hS hv, dStop_small hv,
    dStop_le_largest hS hv, by decide, fun p => ⟨projection_of_nonneg S p hv, projection_neg_of_nonneg S p hv⟩, hedges⟩

end Sys2Proof.Machine
end

section
/-! SUPPORT. The pair rules: how an axis enters a separation, the edges of the pair check, and the two separations that an entry
gives in a screening (R72 to R74, R76). -/

namespace Sys2Proof.Machine

/-! ## How an axis enters a separation (R72) -/

theorem presence_atRest {c : AxisCtx} (h : c.state = .parked ∨ c.state = .held ∨ c.state = .faulted) :
    c.presence = c.pos.map (fun p => ⟨p, 0⟩) := by
  rcases h with h | h | h <;> cases hp : c.pos <;> simp [AxisCtx.presence, h, hp]

theorem presence_moving {c : AxisCtx} (h : c.state = .tracking ∨ c.state = .stopping) :
    c.presence = c.pos.map (fun p => ⟨p, c.step⟩) := by
  rcases h with h | h <;> cases hp : c.pos <;> simp [AxisCtx.presence, h, hp]

theorem presence_eq_none {c : AxisCtx} (h : c.state = .unconfigured ∨ c.state = .locating ∨ c.pos = none) :
    c.presence = none := by
  rcases h with h | h | h
  · simp [AxisCtx.presence, h]
  · simp [AxisCtx.presence, h]
  · cases hs : c.state <;> simp [AxisCtx.presence, hs, h]

/-- The axis `y` makes no rule inactive: it has the record `b`, and enters a separation with the motion `m` (R72). -/
structure ActiveAs (s : State) (y : Axis) (b : AxisBody) (m : Motion) : Prop where
  body : bodyOf s y = some b
  presence : (ctxOf s y).presence = some m

/-! ## The edges (R73) -/

theorem lowEdge_of_neg (b : AxisBody) {m : Motion} (h : m.step < 0) :
    lowEdge b m = m.pos - b.hang - dStop b.sdec (mag m.step) := by
  rw [lowEdge, if_pos h]

theorem lowEdge_of_nonneg (b : AxisBody) {m : Motion} (h : 0 ≤ m.step) : lowEdge b m = m.pos - b.hang := by
  rw [lowEdge, if_neg h.not_gt, sub_zero]

theorem highEdge_of_pos (b : AxisBody) {m : Motion} (h : 0 < m.step) :
    highEdge b m = m.pos + b.crown + dStop b.sdec m.step := by
  rw [highEdge, if_pos h]

theorem highEdge_of_nonpos (b : AxisBody) {m : Motion} (h : m.step ≤ 0) : highEdge b m = m.pos + b.crown := by
  rw [highEdge, if_neg h.not_gt, add_zero]

theorem AxisBody.InRange.sdec_pos {b : AxisBody} (hb : b.InRange) : 0 < b.sdec :=
  zero_lt_one.trans_le (hb.amax.1.trans hb.sdec.1)

theorem lowEdge_range {b : AxisBody} {m : Motion} (hb : b.InRange) (hpos : 0 ≤ m.pos ∧ m.pos ≤ 32000000)
    (hstep : mag m.step ≤ 20000) : -229990000 ≤ lowEdge b m ∧ lowEdge b m ≤ 32000000 := by
  have hhang := hb.hang
  rcases lt_or_ge m.step 0 with h | h
  · have hleast := dStop_nonneg hb.sdec_pos (mag_nonneg m.step)
    have hmost := dStop_le_largest hb.sdec_pos (mag_nonneg m.step) hstep
    rw [lowEdge_of_neg b h]
    omega
  · rw [lowEdge_of_nonneg b h]
    omega

theorem highEdge_range {b : AxisBody} {m : Motion} (hb : b.InRange) (hpos : 0 ≤ m.pos ∧ m.pos ≤ 32000000)
    (hstep : mag m.step ≤ 20000) : 0 ≤ highEdge b m ∧ highEdge b m ≤ 236990000 := by
  have hcrown := hb.crown
  rcases lt_or_ge 0 m.step with h | h
  · rw [mag_of_nonneg h.le] at hstep
    have hleast := dStop_nonneg hb.sdec_pos h.le
    have hmost := dStop_le_largest hb.sdec_pos h.le hstep
    rw [highEdge_of_pos b h]
    omega
  · rw [highEdge_of_nonpos b h]
    omega

/-! ## The separations that an entry gives in a screening (R72, R74, R76) -/

section
variable {s : State} {x : Axis} {b bp : AxisBody} {prev cand m : Motion} {v : PairEntry} {r : PairBody}

/-- The screened axis is the upper one, and the lower one is active. -/
theorem ruleSep_upper (hr : v.body = some r) (hx : r.upper = x) (hl : ActiveAs s r.lower bp m) :
    ruleSep s x b prev cand v = some { old := separation b prev bp m, new := separation b cand bp m } := by
  simp [ruleSep, hr, hx, hl.body, hl.presence]

/-- The screened axis is the lower one, and the upper one is active. -/
theorem ruleSep_lower (hr : v.body = some r) (hne : r.upper ≠ x) (hx : r.lower = x) (hu : ActiveAs s r.upper bp m) :
    ruleSep s x b prev cand v = some { old := separation bp m b prev, new := separation bp m b cand } := by
  simp [ruleSep, hr, hne, hx, hu.body, hu.presence]

theorem ruleSep_not_named (hr : v.body = some r) (hu : r.upper ≠ x) (hl : r.lower ≠ x) :
    ruleSep s x b prev cand v = none := by
  simp [ruleSep, hr, hu, hl]

theorem ruleSep_upper_inactive (hr : v.body = some r) (hx : r.upper = x) (hm : (ctxOf s r.lower).presence = none) :
    ruleSep s x b prev cand v = none := by
  simp [ruleSep, hr, hx, hm]

theorem ruleSep_lower_inactive (hr : v.body = some r) (hu : r.upper ≠ x) (hx : r.lower = x)
    (hm : (ctxOf s r.upper).presence = none) : ruleSep s x b prev cand v = none := by
  simp [ruleSep, hr, hu, hx, hm]

end

/-- Settles O25: the edges by the direction of the step, their ranges from the bound of the stopping distance, and the
separations by the role of the screened axis. -/
theorem separationOfPairRule : Obligations.SeparationOfPairRule := by
  refine ⟨fun bu bl u l =>
    ⟨lowEdge_of_neg bu, lowEdge_of_nonneg bu, highEdge_of_pos bl, highEdge_of_nonpos bl, rfl, ?_⟩, ?_⟩
  · intro hbu hbl hu hl hus hls
    have hlow := lowEdge_range hbu hu hus
    have hhigh := highEdge_range hbl hl hls
    rw [separation]
    omega
  · intro s x b bp prev cand m v r hr active inactive
    have activeAs {y : Axis} (h : active y) : ActiveAs s y bp m := by
      obtain ⟨hbody, p, hp, ⟨hstate, rfl⟩ | ⟨hstate, rfl⟩⟩ := h
      · exact ⟨hbody, by rw [presence_atRest hstate, hp, Option.map_some]⟩
      · exact ⟨hbody, by rw [presence_moving hstate, hp, Option.map_some]⟩
    exact ⟨fun hx h => ruleSep_upper hr hx (activeAs h), fun hu hx h => ruleSep_lower hr hu hx (activeAs h),
      ruleSep_not_named hr, fun hx h => ruleSep_upper_inactive hr hx (presence_eq_none h),
      fun hu hx h => ruleSep_lower_inactive hr hu hx (presence_eq_none h)⟩

end Sys2Proof.Machine
end

section
/-! SUPPORT. What a screening makes of the context and of the motion of its axis, and the law of the pair
rules (R47, R60, R77). -/

namespace Sys2Proof.Machine

/-! ## What a screening makes of the context of its axis (R47) -/

/-- The context that a passed candidate leaves (R24, R51, R57, R62). -/
def AxisCtx.passed (b : AxisBody) (prev cand : Motion) (req : Int) (c : AxisCtx) : AxisCtx :=
  ({ c with
      state := .tracking, pos := some cand.pos, step := cand.step, cause := none
      reference := if c.state = AxisState.held then (if b.load.isSome then c.filtered else none) else c.reference }).withOutcome
    (candidateOutcome b prev cand req)

@[simp] theorem passCandidate_ctx (x : Axis) (b : AxisBody) (prev cand : Motion) (req : Int) (c : AxisCtx) (s : State) :
    (passCandidate x b prev cand req c s).ctx = tset s.ctx x (c.passed b prev cand req) := by
  unfold passCandidate
  dsimp only
  split <;> simp [AxisCtx.passed]

@[simp] theorem stopInScreening_ctx (x : Axis) (b : AxisBody) (cause : StopCause) (c : AxisCtx) (s : State) :
    (stopInScreening x b cause c s).ctx = tset s.ctx x ((c.stopped cause).ramped b s.settings.brakeSettle) := rfl

/-- The contexts that the screening of the axis `x` can make of the context `c`. -/
inductive ScreenedTo (s : State) (x : Axis) (b : AxisBody) (c : AxisCtx) : AxisCtx → Prop
  | stayed (cause : Option StopCause) (o : ScreenOutcome) : ScreenedTo s x b c (({ c with cause := cause }).withOutcome o)
  | ramped (h : c.state = .stopping) : ScreenedTo s x b c (c.ramped b s.settings.brakeSettle)
  | stopped (cause : StopCause) (h : c.state = .tracking) :
      ScreenedTo s x b c ((c.stopped cause).ramped b s.settings.brakeSettle)
  | passed (prev cand : Motion) (req : Int) (hprev : c.presence = some prev)
      (hcheck : checkCandidate s x b prev cand req = none) : ScreenedTo s x b c (c.passed b prev cand req)

theorem screenTracking_ctx {s : State} {x : Axis} {b : AxisBody} {p : Int} {c : AxisCtx} (req : Int)
    (hstate : c.state = .tracking) (hpos : c.pos = some p) :
    ∃ c', (screenTracking x b p req c s).ctx = tset s.ctx x c' ∧ ScreenedTo s x b c c' := by
  have hprev : c.presence = some ⟨p, c.step⟩ := by rw [presence_moving (.inl hstate), hpos, Option.map_some]
  unfold screenTracking
  dsimp only
  split
  case h_1 hcheck => exact ⟨_, passCandidate_ctx .., .passed _ _ req hprev hcheck⟩
  case h_2 cause _ => exact ⟨_, stopInScreening_ctx .., .stopped cause hstate⟩

theorem screenHeld_ctx {s : State} {x : Axis} {b : AxisBody} {p : Int} {c : AxisCtx} (req : Int)
    (hstate : c.state = .held) (hpos : c.pos = some p) :
    ∃ c', (screenHeld x b p req c s).ctx = tset s.ctx x c' ∧ ScreenedTo s x b c c' := by
  have hprev : c.presence = some ⟨p, 0⟩ := by rw [presence_atRest (.inr (.inl hstate)), hpos, Option.map_some]
  unfold screenHeld
  split
  case isTrue =>
    dsimp only
    split
    case h_1 hcheck => exact ⟨_, passCandidate_ctx .., .passed _ _ req hprev hcheck⟩
    case h_2 cause _ => exact ⟨_, setCtx_ctx .., .stayed (some cause) .refused⟩
  case isFalse => exact ⟨_, setCtx_ctx .., .stayed c.cause .idle⟩

/-- Everything that the screening of a configured axis can make of the contexts. -/
theorem screenAxis_ctx {s : State} {x : Axis} {b : AxisBody} (req : Option Int) (synthesised : Bool)
    (hb : bodyOf s x = some b) (hstate : (ctxOf s x).state ≠ .unconfigured) :
    ∃ c', (screenAxis x req synthesised s).ctx = tset s.ctx x c' ∧ ScreenedTo s x b (requested req (ctxOf s x)) c' := by
  have hidle : ∃ c', (setCtx x ((requested req (ctxOf s x)).withOutcome .idle) s).ctx = tset s.ctx x c' ∧
      ScreenedTo s x b (requested req (ctxOf s x)) c' := ⟨_, setCtx_ctx .., .stayed _ .idle⟩
  unfold screenAxis
  dsimp only
  split
  next b' hstopping hbody =>
    obtain rfl : b = b' := Option.some.inj (hb.symm.trans hbody)
    exact ⟨_, setCtx_ctx .., .ramped hstopping⟩
  next b' p hheld hbody hpos =>
    obtain rfl : b = b' := Option.some.inj (hb.symm.trans hbody)
    split
    next r => exact screenHeld_ctx r hheld hpos
    next => exact hidle
  next b' p htracking hbody hpos =>
    obtain rfl : b = b' := Option.some.inj (hb.symm.trans hbody)
    split
    next r => exact screenTracking_ctx r htracking hpos
    next => exact ⟨_, stopInScreening_ctx .., .stopped _ htracking⟩
  next hunconfigured => exact absurd hunconfigured hstate
  next => exact hidle

/-! ## What a screening makes of the motion of its axis (R60, R75) -/

/-- The motion after one ramp step (R60). -/
def Motion.ramped (sdec : Int) (m : Motion) : Motion :=
  { pos := m.pos + rampStep sdec m.step, step := rampStep sdec m.step }

/-- The motions that a screening of the axis `x` can make of the motion `m`: kept, one ramp step on, or a candidate that no pair
rule refuses. -/
inductive MovedTo (s : State) (x : Axis) (b : AxisBody) (m : Motion) : Motion → Prop
  | kept : MovedTo s x b m m
  | ramped : MovedTo s x b m (m.ramped b.sdec)
  | passed (cand : Motion) (h : pairRefuses s x b m cand = false) : MovedTo s x b m cand

theorem pairRefuses_of_check_none {s : State} {x : Axis} {b : AxisBody} {prev cand : Motion} {req : Int}
    (h : checkCandidate s x b prev cand req = none) : pairRefuses s x b prev cand = false := by
  refine Bool.eq_false_iff.mpr fun hpair => ?_
  unfold checkCandidate at h
  dsimp only at h
  rw [if_pos hpair] at h
  split_ifs at h

@[simp] theorem presence_withOutcome (o : ScreenOutcome) (c : AxisCtx) : (c.withOutcome o).presence = c.presence := rfl

/-- A STOPPING axis shows its ramp step, also where the ramp brings it to rest at its destination (R22, R23, R27). -/
theorem presence_ramped {c : AxisCtx} {m : Motion} (b : AxisBody) (brakeSettle : Nat) (hstate : c.state = .stopping)
    (hm : c.presence = some m) : (c.ramped b brakeSettle).presence = some (m.ramped b.sdec) := by
  rw [presence_moving (.inr hstate)] at hm
  obtain ⟨p, hp, rfl⟩ := Option.map_eq_some_iff.mp hm
  unfold AxisCtx.ramped
  rw [presence_withOutcome]
  split
  case isTrue hzero =>
    have hrest : Motion.ramped b.sdec ⟨p, c.step⟩ = ⟨p, 0⟩ := by simp [Motion.ramped, hzero]
    rw [hrest]
    split
    · rw [presence_atRest (.inl rfl), AxisCtx.toParked, hp, Option.map_some]
    · rw [presence_atRest (.inr (.inl rfl)), AxisCtx.toHeld, hp, Option.map_some]
  case isFalse =>
    rw [hp]
    exact presence_moving (.inr hstate)

theorem presence_stopped {c : AxisCtx} (cause : StopCause) (hstate : c.state = .tracking) :
    (c.stopped cause).presence = c.presence := by
  rw [presence_moving (.inr rfl), presence_moving (.inl hstate)]
  rfl

theorem ScreenedTo.presence {s : State} {x : Axis} {b : AxisBody} {c c' : AxisCtx} {m : Motion}
    (h : ScreenedTo s x b c c') (hm : c.presence = some m) : ∃ m', c'.presence = some m' ∧ MovedTo s x b m m' := by
  cases h with
  | stayed cause o => exact ⟨m, hm, .kept⟩
  | ramped hstate => exact ⟨_, presence_ramped b _ hstate hm, .ramped⟩
  | stopped cause hstate =>
    exact ⟨_, presence_ramped b _ rfl ((presence_stopped cause hstate).trans hm), .ramped⟩
  | passed prev cand req hprev hcheck =>
    obtain rfl : prev = m := Option.some.inj (hprev.symm.trans hm)
    exact ⟨cand, rfl, .passed cand (pairRefuses_of_check_none hcheck)⟩

/-! ## A ramp step closes no separation (R60, R73) -/

theorem rampStep_nonneg (sdec : Int) {v : Int} (h : 0 ≤ v) : 0 ≤ rampStep sdec v := by
  rcases h.eq_or_lt with rfl | hpos
  · simp
  · rw [rampStep_of_pos hpos]
    exact le_max_left ..

theorem rampStep_nonpos (sdec : Int) {v : Int} (h : v ≤ 0) : rampStep sdec v ≤ 0 := by
  rcases h.eq_or_lt with rfl | hneg
  · simp
  · rw [rampStep_of_neg hneg]
    exact neg_nonpos.mpr (le_max_left ..)

/-- The low edge of an axis that does not rise is that of its projected stopping position. -/
theorem lowEdge_eq_projection (b : AxisBody) {m : Motion} (h : m.step ≤ 0) :
    lowEdge b m = projection b.sdec m - b.hang := by
  rcases h.eq_or_lt with hzero | hneg
  · simp [lowEdge, projection, hzero]
  · rw [lowEdge_of_neg b hneg, projection, sgn_of_neg hneg]
    omega

/-- The high edge of an axis that does not descend is that of its projected stopping position. -/
theorem highEdge_eq_projection (b : AxisBody) {m : Motion} (h : 0 ≤ m.step) :
    highEdge b m = projection b.sdec m + b.crown := by
  rcases h.eq_or_lt with hzero | hpos
  · simp [highEdge, projection, ← hzero]
  · rw [highEdge_of_pos b hpos, projection, sgn_of_pos hpos, mag_of_nonneg h]
    omega

theorem lowEdge_le_ramped {b : AxisBody} (hS : 0 < b.sdec) (m : Motion) : lowEdge b m ≤ lowEdge b (m.ramped b.sdec) := by
  rcases le_total m.step 0 with h | h
  · rw [lowEdge_eq_projection b h, lowEdge_eq_projection b (rampStep_nonpos b.sdec h), Motion.ramped, projection_ramp hS]
  · have hramp : 0 ≤ rampStep b.sdec m.step := rampStep_nonneg b.sdec h
    rw [lowEdge_of_nonneg b h, lowEdge_of_nonneg b hramp]
    exact Int.sub_le_sub_right (le_add_of_nonneg_right hramp) _

theorem highEdge_ramped_le {b : AxisBody} (hS : 0 < b.sdec) (m : Motion) :
    highEdge b (m.ramped b.sdec) ≤ highEdge b m := by
  rcases le_total 0 m.step with h | h
  · rw [highEdge_eq_projection b h, highEdge_eq_projection b (rampStep_nonneg b.sdec h), Motion.ramped, projection_ramp hS]
  · have hramp : rampStep b.sdec m.step ≤ 0 := rampStep_nonpos b.sdec h
    rw [highEdge_of_nonpos b h, highEdge_of_nonpos b hramp]
    exact Int.add_le_add_right (add_le_of_nonpos_right hramp) _

/-! ## The law of the pair rules (R76, R77) -/

/-- A motion that draws neither edge of its axis outward closes no separation. -/
theorem ruleSep_old_le_new {s : State} {x : Axis} {b : AxisBody} {prev cand : Motion} {v : PairEntry} {q : RuleSep}
    (hlow : lowEdge b prev ≤ lowEdge b cand) (hhigh : highEdge b cand ≤ highEdge b prev)
    (hq : ruleSep s x b prev cand v = some q) : q.old ≤ q.new := by
  unfold ruleSep at hq
  split at hq
  next => cases hq
  next r _ =>
    split_ifs at hq
    case pos =>
      split at hq
      next => cases hq; exact Int.sub_le_sub_right hlow _
      next => cases hq
    case pos =>
      split at hq
      next => cases hq; exact Int.sub_le_sub_left hhigh _
      next => cases hq

/-- An entry that does not refuse a candidate leaves the gap, or closes nothing (R76). -/
theorem keepsGap_of_not_refused {s : State} {x : Axis} {b : AxisBody} {prev cand : Motion} {i : PairIndex} {r : PairBody}
    {q : RuleSep} (h : pairRefuses s x b prev cand = false) (hr : (tget s.pairTab i).body = some r)
    (hq : ruleSep s x b prev cand (tget s.pairTab i) = some q) : r.gap ≤ q.new ∨ q.old ≤ q.new := by
  have hnot : ruleRefuses s x b prev cand (tget s.pairTab i) = false :=
    Bool.eq_false_iff.mpr fun hrefuses => Bool.eq_false_iff.mp h ((any_toList ..).mpr ⟨i, hrefuses⟩)
  simpa [ruleRefuses, hr, hq, or_iff_not_imp_left] using hnot

theorem MovedTo.keepsGap {s : State} {x : Axis} {b : AxisBody} {m m' : Motion} {i : PairIndex} {r : PairBody} {q : RuleSep}
    (h : MovedTo s x b m m') (hS : 0 < b.sdec) (hr : (tget s.pairTab i).body = some r)
    (hq : ruleSep s x b m m' (tget s.pairTab i) = some q) : r.gap ≤ q.new ∨ q.old ≤ q.new := by
  cases h with
  | kept => exact .inr (ruleSep_old_le_new le_rfl le_rfl hq)
  | ramped => exact .inr (ruleSep_old_le_new (lowEdge_le_ramped hS m) (highEdge_ramped_le hS m) hq)
  | passed cand h => exact keepsGap_of_not_refused h hr hq

theorem ruleSeparation_eq {s : State} {r : PairBody} {bu bl : AxisBody} {mu ml : Motion} (hu : ActiveAs s r.upper bu mu)
    (hl : ActiveAs s r.lower bl ml) : ruleSeparation s r = some (separation bu mu bl ml) := by
  simp [ruleSeparation, hu.body, hu.presence, hl.body, hl.presence]

theorem inCue_iff {a : AxisState} : a.inCue = true ↔ a = .held ∨ a = .tracking ∨ a = .stopping := by
  simp [AxisState.inCue, or_assoc]

/-- A PARKED, HELD, TRACKING or STOPPING axis makes no rule inactive: it has a record and a position (R2, R19, R72). -/
theorem Lawful.activeAs {s : State} (h : Lawful s) {y : Axis}
    (hy : (ctxOf s y).state = .parked ∨ (ctxOf s y).state.inCue = true) : ∃ b m, ActiveAs s y b m := by
  rw [inCue_iff] at hy
  have hc := h.contexts y
  have hconfigured : (ctxOf s y).state ≠ .unconfigured := by
    rcases hy with hs | hs | hs | hs <;> simp [hs]
  obtain ⟨b, hb⟩ := Option.ne_none_iff_exists'.mp (mt hc.configured.mpr hconfigured)
  obtain ⟨p, hp⟩ := Option.isSome_iff_exists.mp (hc.pos hy)
  rcases hy with hs | hs | hs
  · exact ⟨b, ⟨p, 0⟩, hb, by rw [presence_atRest (.inl hs), hp, Option.map_some]⟩
  · exact ⟨b, ⟨p, 0⟩, hb, by rw [presence_atRest (.inr (.inl hs)), hp, Option.map_some]⟩
  · exact ⟨b, ⟨p, (ctxOf s y).step⟩, hb, by rw [presence_moving hs, hp, Option.map_some]⟩

/-- What a screening of the active axis `x` does to the axes of the rules: `x` moves, every other active axis stands as it did
(R47). -/
theorem Screens.activeAs {s t : State} {x : Axis} {cmd : Instr} {req : Option Int} {e : Screening} {b : AxisBody} {m : Motion}
    (h : Screens s x cmd req e) (hexec : exec cmd s = .next t) (hx : ActiveAs s x b m) :
    (∃ m', ActiveAs t x b m' ∧ MovedTo s x b m m') ∧
    ∀ {y : Axis} {b' : AxisBody} {n : Motion}, y ≠ x → ActiveAs s y b' n → ActiveAs t y b' n := by
  obtain ⟨hnext, hconfigured⟩ := h.exec_eq
  obtain rfl : screenAndFix x req e s = t := by rw [hnext] at hexec; exact Host.Outcome.next.inj hexec
  obtain ⟨c', hctx, hto⟩ := screenAxis_ctx req e.synthesised hx.body hconfigured
  have hbodies (y : Axis) : bodyOf (screenAndFix x req e s) y = bodyOf s y := bodyOf_congr (by simp) y
  have hcontexts (y : Axis) : ctxOf (screenAndFix x req e s) y = if y = x then c' else ctxOf s y :=
    (congrArg (tget · y) hctx).trans (tget_tset ..)
  refine ⟨?_, fun {y} {_} {_} hy hactive => ⟨(hbodies y).trans hactive.body, ?_⟩⟩
  · obtain ⟨m', hm', hmoved⟩ := hto.presence hx.presence
    exact ⟨m', ⟨(hbodies x).trans hx.body, by rw [hcontexts, if_pos rfl, hm']⟩, hmoved⟩
  · rw [hcontexts, if_neg hy, hactive.presence]

/-- Settles O26: the screened axis keeps its motion, takes a ramp step, which draws neither edge outward, or takes a candidate
that the rule does not refuse; its partner stands still in the screening. -/
theorem screeningKeepsPairLaw : Obligations.ScreeningKeepsPairLaw := by
  intro s t x cmd req e i r hs hscreens hexec hr hx hupper hlower
  obtain ⟨bu, mu, hu⟩ := hs.activeAs hupper
  obtain ⟨bl, ml, hl⟩ := hs.activeAs hlower
  have hne : r.upper ≠ r.lower := (hs.tables.pairBody i r hr).axes
  rcases hx with rfl | rfl
  · obtain ⟨⟨mu', hu', hmoved⟩, hothers⟩ := hscreens.activeAs hexec hu
    have hS := (hs.tables.axisBody _ _ hu.body).sdec_pos
    exact ⟨_, _, ruleSeparation_eq hu hl, ruleSeparation_eq hu' (hothers hne.symm hl),
      hmoved.keepsGap hS hr (ruleSep_upper hr rfl hl)⟩
  · obtain ⟨⟨ml', hl', hmoved⟩, hothers⟩ := hscreens.activeAs hexec hl
    have hS := (hs.tables.axisBody _ _ hl.body).sdec_pos
    exact ⟨_, _, ruleSeparation_eq hu hl, ruleSeparation_eq (hothers hne hu) hl',
      hmoved.keepsGap hS hr (ruleSep_lower hr hne rfl hu)⟩

end Sys2Proof.Machine
end

section
/-! SUPPORT. The front request taken, judged and answered; a table's entries read off by their indexes; DROP_CUE and HALT_AXES
(R107, R108, R162, R163, R167). -/

namespace Sys2Proof.Machine

/-! ## The front request taken and answered (R162, R163) -/

section
variable {e : Envelope} {rest : List Envelope} {more : List (List Envelope)} {s : State}

/-- An answer queued after the front request has been taken. -/
theorem answer_withoutFront (result : Result) (body : AnswerBody) :
    answer e result body (withoutFront rest more s) = answered e rest more result body s := rfl

/-- Taking the front request touches nothing that raising events reads or writes. -/
theorem raiseAll_withoutFront (es : List Event) :
    raiseAll es (withoutFront rest more s) = withoutFront rest more (raiseAll es s) := by
  induction es generalizing s with
  | nil => rfl
  | cons ev es ih => exact ih (s := raise ev s)

/-- A request that decodes, of a group that admits the mode, goes to its own checks. -/
theorem judged_of_admits {α : Type} {g : RequestGroup} {decoded : Except Nat α} {own : α → State → State} {x : α}
    (hdecoded : decoded = .ok x) (hadmits : g.admits s.req.mode = true) : judged e g decoded own s = own x s := by
  rw [judged.eq_def, hdecoded]
  exact if_pos hadmits

/-- A request that decodes, in a mode that its group excludes. -/
theorem judged_of_not_admits {α : Type} {g : RequestGroup} {decoded : Except Nat α} {own : α → State → State} {x : α}
    (hdecoded : decoded = .ok x) (hadmits : g.admits s.req.mode = false) :
    judged e g decoded own s = refuse e .wrongMode s := by
  rw [judged.eq_def, hdecoded]
  exact if_neg (Bool.eq_false_iff.mp hadmits)

end

theorem motion_admits_iff {m : Mode} : RequestGroup.motion.admits m = true ↔ m = .commission ∨ m = .inShow := by
  simp [RequestGroup.admits]

/-! ## DROP_CUE (R107) -/

theorem exec_dropCue {e : Envelope} {rest : List Envelope} {more : List (List Envelope)} {s : State}
    (h : FrontRequest e rest more s) (hkind : e.kind = 20) :
    exec .dropCue s = .next (runDropCue e (withoutFront rest more s)) := carryOut_front runDropCue h hkind

/-- Settles O52: the body decodes, so the mode alone decides between the refusal and the emptied slot. -/
theorem dropCueEmptiesStagedSlot : Obligations.DropCueEmptiesStagedSlot := by
  intro e rest more s hfront hkind hbody
  have hdecoded : decodeNone e.body = .ok () := by rw [hbody]; rfl
  rw [exec_dropCue hfront hkind, runDropCue]
  constructor
  · intro hstart
    have hadmits : RequestGroup.motion.admits (withoutFront rest more s).req.mode = false := congrArg _ hstart
    rw [judged_of_not_admits hdecoded hadmits]
    rfl
  · intro hmode
    have hadmits : RequestGroup.motion.admits (withoutFront rest more s).req.mode = true := motion_admits_iff.mpr hmode
    rw [judged_of_admits hdecoded hadmits]
    rfl

/-! ## The entries of a table by their indexes -/

theorem tzip_eq_map {α : Type} {n : Nat} (v : Vector α n) : tzip v = (List.finRange n).map (fun i => (i, tget v i)) := by
  apply List.ext_getElem <;> simp [tzip, tget]

theorem tzip_ctx (s : State) : tzip s.ctx = allAxes.map (fun x => (x, ctxOf s x)) := tzip_eq_map s.ctx

/-- The contexts that pass a test, counted by axis number. -/
theorem length_filter_tzip_ctx {s : State} {p : Axis × AxisCtx → Bool} {q : Axis → Prop} [DecidablePred q]
    (h : ∀ x, p (x, ctxOf s x) = true ↔ q x) :
    ((tzip s.ctx).filter p).length = (allAxes.filter (fun x => q x)).length := by
  rw [tzip_ctx, List.filter_map, List.length_map]
  have htest : p ∘ (fun x => (x, ctxOf s x)) = fun x => decide (q x) :=
    funext fun x => Bool.eq_iff_iff.mpr ((h x).trans decide_eq_true_iff.symm)
  rw [htest]

/-! ## HALT_AXES (R108) -/

section
variable {c : AxisCtx}

theorem halted_of_tracking (h : c.state = .tracking) : c.halted = { c with
    state := .stopping, cause := some .stopRequest, dest := some .held, reference := none, capture := false } := by
  rw [AxisCtx.halted, h]
  simp [AxisCtx.stopped, StopCause.destination, StopCause.recapturable]

theorem halted_of_held (h : c.state = .held) :
    c.halted = { c with cause := some .stopRequest, capture := false } := by
  rw [AxisCtx.halted, h]

theorem halted_of_stopping (h : c.state = .stopping) : c.halted = { c with capture := false } := by
  rw [AxisCtx.halted, h]

theorem halted_of_other (htracking : c.state ≠ .tracking) (hheld : c.state ≠ .held) (hstopping : c.state ≠ .stopping) :
    c.halted = c := by
  unfold AxisCtx.halted
  split
  next h => exact absurd h htracking
  next h => exact absurd h hheld
  next h => exact absurd h hstopping
  next => rfl

end

section
variable (s : State) (named : AxisSet)

/-- The axes that a HALT_AXES stops: named and TRACKING, in ascending axis number. -/
def haltStopped : List Axis := allAxes.filter (fun x => named.covers x ∧ (ctxOf s x).state = .tracking)

/-- The axes that a HALT_AXES disarms: named, HELD or STOPPING, with capture permitted, in ascending axis number. -/
def haltDisarmed : List Axis := allAxes.filter (fun x => named.covers x ∧
  ((ctxOf s x).state = .held ∨ (ctxOf s x).state = .stopping) ∧ (ctxOf s x).capture = true)

theorem length_filter_haltStops : ((tzip s.ctx).filter (haltStops named)).length = (haltStopped s named).length :=
  length_filter_tzip_ctx fun x => by simp [haltStops]

theorem length_filter_haltDisarms :
    ((tzip s.ctx).filter (haltDisarms named)).length = (haltDisarmed s named).length :=
  length_filter_tzip_ctx fun x => by simp [haltDisarms, and_assoc]

theorem filterMap_haltedEvent : (tzip s.ctx).filterMap (haltedEvent named) =
    (haltStopped s named).map (fun x => .axisStopped x (.stop .stopRequest) ((ctxOf s x).pos.getD 0)) := by
  rw [tzip_ctx, List.filterMap_map, haltStopped, ← List.filterMap_eq_map, List.filterMap_filter]
  congr 1
  funext x
  simp [haltedEvent, stoppedEvent]

theorem haltSet_withoutFront (e : Envelope) (rest : List Envelope) (more : List (List Envelope)) :
    haltSet e named (withoutFront rest more s) =
      answered e rest more .accepted (.halted (haltStopped s named).length (haltDisarmed s named).length)
        (raiseAll ((haltStopped s named).map (fun x =>
            .axisStopped x (.stop .stopRequest) ((ctxOf s x).pos.getD 0)))
          (mapCtx (fun x c => if named.covers x then c.halted else c) s)) := by
  rw [← length_filter_haltStops, ← length_filter_haltDisarms, ← filterMap_haltedEvent, ← answer_withoutFront,
    ← raiseAll_withoutFront]
  rfl

end

theorem exec_haltAxes {e : Envelope} {rest : List Envelope} {more : List (List Envelope)} {s : State} {list : AxisList}
    (h : FrontRequest e rest more s) (hkind : e.kind = 6) (hdecoded : decodeAxisList e.body = .ok list) :
    exec .haltAxes s = .next (judgeHalt e list (withoutFront rest more s)) := by
  have hfront : exec .haltAxes s = .next (runHaltAxes e (withoutFront rest more s)) := carryOut_front runHaltAxes h hkind
  rw [hfront, runHaltAxes, judged_of_admits hdecoded rfl]

/-- Settles O42: the counts and the events are read off the table of contexts in ascending axis number, and the request's
own removal from the frames touches neither. -/
theorem haltStopsAndDisarms : Obligations.HaltStopsAndDisarms := by
  intro e rest more s list hfront hkind hdecoded
  rw [exec_haltAxes hfront hkind hdecoded, judgeHalt]
  constructor
  · intro hset
    rw [hset]
    rfl
  · intro named hset halted stopped disarmed
    have hhalted : halted = AxisCtx.halted := by
      funext c
      unfold halted
      split
      next h => exact (halted_of_tracking h).symm
      next h => exact (halted_of_held h).symm
      next h => exact (halted_of_stopping h).symm
      next htracking hheld hstopping => exact (halted_of_other htracking hheld hstopping).symm
    rw [hset, hhalted]
    exact congrArg Host.Outcome.next (haltSet_withoutFront s named e rest more)

end Sys2Proof.Machine
end

section
/-! SUPPORT. MODE, LOCK_ENTRY and UNLOCK_ENTRY: the mode judged by its target, and the locked flag of an entry that is present
(R160, R165, R167, R169). -/

namespace Sys2Proof.Machine

/-! ## Decoding refusals, and the entry that a number names (R160) -/

section
variable {e : Envelope} {rest : List Envelope} {more : List (List Envelope)} {s : State}

/-- A request whose body does not decode, in any mode. -/
theorem judged_of_error {α : Type} {g : RequestGroup} {decoded : Except Nat α} {own : α → State → State} {field : Nat}
    (hdecoded : decoded = .error field) : judged e g decoded own s = refuseField e field s := by
  rw [judged.eq_def, hdecoded]

theorem indexed_of_val {n k : Nat} {own : Fin n → State → State} {i : Fin n} (h : i.val = k) :
    indexed n e k own s = own i s := by
  rw [indexed.eq_def, (toIndex_eq_some i).mpr h]

theorem indexed_of_le {n k : Nat} {own : Fin n → State → State} (h : n ≤ k) :
    indexed n e k own s = refuse e .badIndex s := by
  rw [indexed.eq_def, toIndex_eq_none.mpr h]

/-! ## The verdicts on a MODE (R165) -/

theorem judgeMode_start : judgeMode e .start s = refuseField e 1 s := by
  cases h : s.req.mode <;> rw [judgeMode.eq_def, h]

theorem judgeMode_commission (h : s.req.mode = .start ∨ s.req.mode = .commission) :
    judgeMode e .commission s = acceptMode e .commission s := by
  rcases h with h | h <;> rw [judgeMode.eq_def, h]

theorem judgeMode_commission_of_moving (h : s.req.mode = .inShow) (hmoving : Moving s) :
    judgeMode e .commission s = refuse e .axisMoving s := by
  rw [judgeMode.eq_def, h]
  exact if_pos ((anyMoving_iff s).mpr hmoving)

theorem judgeMode_commission_of_still (h : s.req.mode = .inShow) (hstill : ¬ Moving s) :
    judgeMode e .commission s = acceptMode e .commission s := by
  rw [judgeMode.eq_def, h]
  exact if_neg (mt (anyMoving_iff s).mp hstill)

theorem judgeMode_inShow_of_start (h : s.req.mode = .start) : judgeMode e .inShow s = refuse e .wrongMode s := by
  rw [judgeMode.eq_def, h]

theorem judgeMode_inShow_of_moving (h : s.req.mode = .commission) (hmoving : Moving s) :
    judgeMode e .inShow s = refuse e .axisMoving s := by
  rw [judgeMode.eq_def, h]
  exact if_pos ((anyMoving_iff s).mpr hmoving)

theorem judgeMode_inShow_of_still (h : s.req.mode = .commission) (hstill : ¬ Moving s) :
    judgeMode e .inShow s = if s.tare.isSome then refuse e .busy s else acceptMode e .inShow s := by
  rw [judgeMode.eq_def, h]
  exact if_neg (mt (anyMoving_iff s).mp hstill)

theorem judgeMode_inShow_of_taring (h : s.req.mode = .commission) (hstill : ¬ Moving s) (htare : s.tare ≠ none) :
    judgeMode e .inShow s = refuse e .busy s :=
  (judgeMode_inShow_of_still h hstill).trans (if_pos (Option.isSome_iff_ne_none.mpr htare))

theorem judgeMode_inShow_of_no_tare (h : s.req.mode = .commission) (hstill : ¬ Moving s) (htare : s.tare = none) :
    judgeMode e .inShow s = acceptMode e .inShow s :=
  (judgeMode_inShow_of_still h hstill).trans (if_neg fun hsome => Option.isSome_iff_ne_none.mp hsome htare)

theorem judgeMode_inShow_of_inShow (h : s.req.mode = .inShow) : judgeMode e .inShow s = acceptMode e .inShow s := by
  rw [judgeMode.eq_def, h]

/-- Taking the front request touches neither the tare engine nor the event unit. -/
theorem abortTare_withoutFront (reason : TareAbort) :
    abortTare reason (withoutFront rest more s) = withoutFront rest more (abortTare reason s) := by
  cases h : s.tare <;> simp only [abortTare, withoutFront, raise, h]

theorem acceptMode_withoutFront (m : Mode) : acceptMode e m (withoutFront rest more s) =
    answered e rest more .accepted .empty (abortTare .mode { s with req := { s.req with mode := m } }) :=
  congrArg (accept e) (abortTare_withoutFront (s := { s with req := { s.req with mode := m } }) .mode)

/-! ## MODE carried out (R160, R165) -/

theorem exec_mode (h : FrontRequest e rest more s) (hkind : e.kind = 1) :
    exec .mode s = .next (runMode e (withoutFront rest more s)) := carryOut_front runMode h hkind

theorem exec_mode_of_decodes {m : Mode} (h : FrontRequest e rest more s) (hkind : e.kind = 1)
    (hdecoded : decodeMode e.body = .ok m) : exec .mode s = .next (judgeMode e m (withoutFront rest more s)) := by
  rw [exec_mode h hkind, runMode, judged_of_admits hdecoded rfl]

theorem exec_mode_of_error {field : Nat} (h : FrontRequest e rest more s) (hkind : e.kind = 1)
    (hdecoded : decodeMode e.body = .error field) :
    exec .mode s = .next (answered e rest more .badField (.badField field) s) := by
  rw [exec_mode h hkind, runMode, judged_of_error hdecoded, refuseField, answer_withoutFront]

theorem decodeMode_of_length_ne_one {bs : List Byte} (h : bs.length ≠ 1) : decodeMode bs = .error 0 := by
  match bs with
  | [] => rfl
  | [_] => exact absurd rfl h
  | _ :: _ :: _ => rfl

/-- The one target byte beside 1 and 2 that decodes is START's. -/
theorem decodeMode_of_other {n : Byte} (hcommission : n ≠ 1) (hshow : n ≠ 2) :
    decodeMode [n] = .ok .start ∨ decodeMode [n] = .error 1 := by
  rw [decodeMode]
  split
  next => exact .inl rfl
  next h => exact absurd (BitVec.eq_of_toNat_eq h) hcommission
  next h => exact absurd (BitVec.eq_of_toNat_eq h) hshow
  next => exact .inr rfl

end

/-- Settles O39: the body decodes to a target or is refused with its field number, and the verdict on the target is read off
the row of the mode; what an accepted MODE leaves is the abort of the tare in flight. -/
theorem modeRequestJudged : Obligations.ModeRequestJudged := by
  intro e rest more s hfront hkind refusedWith accepted
  have judgedAs {b : Byte} {m : Mode} {t : State} (hbody : e.body = [b]) (hdecoded : decodeMode [b] = .ok m)
      (hjudged : judgeMode e m (withoutFront rest more s) = t) : exec .mode s = .next t := by
    rw [exec_mode_of_decodes hfront hkind (hbody ▸ hdecoded), hjudged]
  have acceptedAs {b : Byte} {m : Mode} (hbody : e.body = [b]) (hdecoded : decodeMode [b] = .ok m)
      (hjudged : judgeMode e m (withoutFront rest more s) = acceptMode e m (withoutFront rest more s)) : accepted m :=
    judgedAs hbody hdecoded (hjudged.trans (acceptMode_withoutFront m))
  refine ⟨?_, ?_, ?_, ?_, ?_, ?_, ?_, ?_, ?_, ?_⟩
  · exact fun hlength => exec_mode_of_error hfront hkind (decodeMode_of_length_ne_one hlength)
  · intro n hbody hcommission hshow
    rcases decodeMode_of_other hcommission hshow with hdecoded | hdecoded
    · exact judgedAs hbody hdecoded judgeMode_start
    · exact exec_mode_of_error hfront hkind (hbody ▸ hdecoded)
  · exact fun hbody hmode => acceptedAs hbody rfl (judgeMode_commission hmode)
  · exact fun hbody hmode => judgedAs hbody rfl (judgeMode_inShow_of_start hmode)
  · exact fun hbody hmode hmoving => judgedAs hbody rfl (judgeMode_inShow_of_moving hmode hmoving)
  · exact fun hbody hmode hstill htare => judgedAs hbody rfl (judgeMode_inShow_of_taring hmode hstill htare)
  · exact fun hbody hmode hstill htare => acceptedAs hbody rfl (judgeMode_inShow_of_no_tare hmode hstill htare)
  · exact fun hbody hmode hmoving => judgedAs hbody rfl (judgeMode_commission_of_moving hmode hmoving)
  · exact fun hbody hmode hstill => acceptedAs hbody rfl (judgeMode_commission_of_still hmode hstill)
  · exact fun hbody hmode => acceptedAs hbody rfl (judgeMode_inShow_of_inShow hmode)

/-! ## LOCK_ENTRY and UNLOCK_ENTRY (R167, R169) -/

theorem structural_admits_iff {m : Mode} : RequestGroup.structural.admits m = true ↔ m = .commission := by
  simp [RequestGroup.admits]

theorem decodeEntryRef_of_code {t b1 b0 : Byte} (h : t = 1 ∨ t = 2 ∨ t = 3) :
    ∃ table, decodeEntryRef [t, b1, b0] = .ok (table, u16 b1 b0) := by
  rcases h with rfl | rfl | rfl
  · exact ⟨.axisTable, rfl⟩
  · exact ⟨.pairTable, rfl⟩
  · exact ⟨.lineTable, rfl⟩

/-- `cmd` is the command that writes `flag` into a locked flag, and `e` a request of its kind. -/
def LocksWith (e : Envelope) (cmd : Instr) (flag : Bool) : Prop :=
  e.kind = 14 ∧ cmd = .lockEntry ∧ flag = true ∨ e.kind = 15 ∧ cmd = .unlockEntry ∧ flag = false

section
variable {e : Envelope} {rest : List Envelope} {more : List (List Envelope)} {s : State} {cmd : Instr} {flag : Bool}

theorem exec_lock (h : FrontRequest e rest more s) (hcmd : LocksWith e cmd flag) :
    exec cmd s = .next (runLock flag e (withoutFront rest more s)) := by
  rcases hcmd with ⟨hkind, rfl, rfl⟩ | ⟨hkind, rfl, rfl⟩
  · exact carryOut_front (runLock true) h hkind
  · exact carryOut_front (runLock false) h hkind

theorem exec_lock_wrongMode {ref : TableCode × Nat} (h : FrontRequest e rest more s) (hcmd : LocksWith e cmd flag)
    (hdecoded : decodeEntryRef e.body = .ok ref) (hmode : s.req.mode ≠ .commission) :
    exec cmd s = .next (answered e rest more .wrongMode .empty s) := by
  have hadmits : RequestGroup.structural.admits (withoutFront rest more s).req.mode = false :=
    Bool.eq_false_iff.mpr (mt structural_admits_iff.mp hmode)
  rw [exec_lock h hcmd, runLock, judged_of_not_admits hdecoded hadmits, refuse, answer_withoutFront]

theorem exec_lock_judged {ref : TableCode × Nat} (h : FrontRequest e rest more s) (hcmd : LocksWith e cmd flag)
    (hdecoded : decodeEntryRef e.body = .ok ref) (hmode : s.req.mode = .commission) :
    exec cmd s = .next (judgeLock flag e ref (withoutFront rest more s)) := by
  have hadmits : RequestGroup.structural.admits (withoutFront rest more s).req.mode = true :=
    structural_admits_iff.mpr hmode
  rw [exec_lock h hcmd, runLock, judged_of_admits hdecoded hadmits]

/-- The index judged against a table of `n` entries: above the last one it is refused. -/
theorem exec_badIndex {n k : Nat} {own : Fin n → State → State}
    (hexec : exec cmd s = .next (indexed n e k own (withoutFront rest more s))) (h : n ≤ k) :
    exec cmd s = .next (answered e rest more .badIndex .empty s) := by
  rw [hexec, indexed_of_le h, refuse, answer_withoutFront]

/-- A named entry that must be present: refused when its body is absent, else accepted with the state `u`. -/
theorem exec_present {α : Type} {n k : Nat} {own : Fin n → State → State} {i : Fin n} {body : Option α} {u : State}
    (hexec : exec cmd s = .next (indexed n e k own (withoutFront rest more s))) (hi : i.val = k)
    (hown : own i (withoutFront rest more s) = if body.isNone then refuse e .notConfigured (withoutFront rest more s)
      else accept e (withoutFront rest more u)) :
    (body = none → exec cmd s = .next (answered e rest more .notConfigured .empty s)) ∧
    (body ≠ none → exec cmd s = .next (answered e rest more .accepted .empty u)) := by
  rw [hexec, indexed_of_val hi, hown]
  constructor
  · intro habsent
    rw [if_pos (Option.isNone_iff_eq_none.mpr habsent), refuse, answer_withoutFront]
  · intro hpresent
    rw [if_neg (mt Option.isNone_iff_eq_none.mp hpresent), accept, answer_withoutFront]

end

/-- Settles O50: the table code decodes, the mode alone admits the request, and each table's own judgement is that of an entry
that must be present. -/
theorem lockAndUnlockWriteFlagOnly : Obligations.LockAndUnlockWriteFlagOnly := by
  intro e rest more s cmd flag t b1 b0 hfront hcmd hbody ht n answers accepted
  obtain ⟨table, hdecoded⟩ := decodeEntryRef_of_code (b1 := b1) (b0 := b0) ht
  refine ⟨exec_lock_wrongMode hfront hcmd (hbody ▸ hdecoded), fun hmode => ?_⟩
  have judgedAs {ref : TableCode × Nat} (h : decodeEntryRef [t, b1, b0] = .ok ref) :
      exec cmd s = .next (judgeLock flag e ref (withoutFront rest more s)) :=
    exec_lock_judged hfront hcmd (hbody ▸ h) hmode
  have onAxes (h : t = 1) : exec cmd s = .next (indexed 128 e n (lockAxis flag e) (withoutFront rest more s)) :=
    judgedAs (ref := (.axisTable, n)) (by rw [h]; rfl)
  have onPairs (h : t = 2) : exec cmd s = .next (indexed 512 e n (lockPair flag e) (withoutFront rest more s)) :=
    judgedAs (ref := (.pairTable, n)) (by rw [h]; rfl)
  have onLines (h : t = 3) : exec cmd s = .next (indexed 16 e n (lockLine flag e) (withoutFront rest more s)) :=
    judgedAs (ref := (.lineTable, n)) (by rw [h]; rfl)
  refine ⟨?_, ?_, ?_, ?_⟩
  · rintro (⟨h, habove⟩ | ⟨h, habove⟩ | ⟨h, habove⟩)
    · exact exec_badIndex (onAxes h) habove
    · exact exec_badIndex (onPairs h) habove
    · exact exec_badIndex (onLines h) habove
  · exact fun x h hx => exec_present (onAxes h) hx rfl
  · exact fun i h hi => exec_present (onPairs h) hi rfl
  · exact fun l h hl => exec_present (onLines h) hl rfl

end Sys2Proof.Machine
end

section
/-! SUPPORT. SET_MASK: the latches of the classes that it unmasks emptied, and their events offered in ascending class number
(R176). -/

namespace Sys2Proof.Machine

/-! ## What the event unit releases when its mask `old` has been replaced (R176) -/

namespace EventUnit
variable (old : BitVec 7) (u : EventUnit)

/-- Whether retained class `k` was masked by `old` and is unmasked now. -/
def unmasked (k : Fin 4) : Bool := old.getLsbD k && !u.mask.getLsbD k

/-- The latched event that retained class `k` releases. -/
def released (k : Fin 4) : Option QueuedEvent := if u.unmasked old k then tget u.latches k else none

/-- The latches of the unmasked classes among `ks` emptied, and no event offered. -/
def emptied (ks : List (Fin 4)) : EventUnit :=
  { u with latches := tmap (fun k q => if k ∈ ks ∧ u.unmasked old k then none else q) u.latches }

@[simp] theorem emptied_unmasked (ks : List (Fin 4)) : (u.emptied old ks).unmasked old = u.unmasked old := rfl

@[simp] theorem tget_emptied (ks : List (Fin 4)) (k : Fin 4) : tget (u.emptied old ks).latches k =
    if k ∈ ks ∧ u.unmasked old k then none else tget u.latches k := tget_tmap _ _ _

variable {old u} in
/-- The emptied latches read off class by class. -/
theorem emptied_eq_of_latches {ks : List (Fin 4)} {v : Vector (Option QueuedEvent) 4}
    (h : ∀ k, (if k ∈ ks ∧ u.unmasked old k then none else tget u.latches k) = tget v k) :
    u.emptied old ks = { u with latches := v } := by
  have htable : (u.emptied old ks).latches = v := table_ext fun k => (tget_emptied old u ks k).trans (h k)
  rw [← htable, emptied]

theorem emptied_nil : u.emptied old [] = u := emptied_eq_of_latches fun k => by simp

/-- Emptying the latch of one class and then those of others is emptying them all. -/
theorem emptied_cons (k : Fin 4) (ks : List (Fin 4)) : u.emptied old (k :: ks) = (u.emptied old [k]).emptied old ks :=
  emptied_eq_of_latches fun j => by
    simp only [tget_tmap, emptied_unmasked, tget_emptied, List.mem_cons, List.not_mem_nil, or_false]
    by_cases hj : j ∈ ks
    · cases u.unmasked old j <;> simp [hj]
    · simp [hj]

/-- A class outside `ks` releases the same event before and after the latches of `ks` are emptied. -/
theorem released_emptied {ks : List (Fin 4)} {k : Fin 4} (h : k ∉ ks) :
    (u.emptied old ks).released old k = u.released old k := by
  simp [released, h]

/-- A class that releases nothing has no latch to empty. -/
theorem emptied_singleton_of_none {k : Fin 4} (h : u.released old k = none) : u.emptied old [k] = u :=
  emptied_eq_of_latches fun j => by
    split
    next hj =>
      obtain ⟨hjk, hunmasked⟩ := hj
      rw [List.mem_singleton.mp hjk] at hunmasked ⊢
      rw [← h, released, if_pos hunmasked]
    next => rfl

/-- The latch of an unmasked class emptied, in the words of a table's write. -/
theorem emptied_singleton_of_unmasked {k : Fin 4} (h : u.unmasked old k = true) :
    u.emptied old [k] = { u with latches := tset u.latches k none } :=
  emptied_eq_of_latches fun j => by
    by_cases hj : j = k
    · simp [hj, h]
    · simp [hj, tget_tset]

/-! ## Offering an event leaves the latches and the mask alone -/

theorem offer_unmasked (q : QueuedEvent) : (u.offer q).unmasked old = u.unmasked old := by
  funext k
  rw [unmasked, unmasked, offer_mask]

theorem offer_released (q : QueuedEvent) : (u.offer q).released old = u.released old := by
  funext k
  rw [released, released, offer_unmasked, offer_latches]

theorem offer_withLatches (q : QueuedEvent) (v : Vector (Option QueuedEvent) 4) :
    offer q { u with latches := v } = { u.offer q with latches := v } := by
  unfold offer setLost
  split <;> [rfl; split <;> rfl]

theorem offer_emptied (q : QueuedEvent) (ks : List (Fin 4)) :
    (u.offer q).emptied old ks = (u.emptied old ks).offer q := by
  rw [emptied, offer_unmasked, offer_latches]
  exact (offer_withLatches u q _).symm

/-! ## One class, and the classes one after another -/

theorem unmask_of_released {k : Fin 4} {q : QueuedEvent} (h : u.released old k = some q) :
    unmask old u k = (u.emptied old [k]).offer q := by
  obtain ⟨hunmasked, hlatch⟩ : u.unmasked old k = true ∧ tget u.latches k = some q := by simpa [released] using h
  rw [emptied_singleton_of_unmasked old u hunmasked, unmask, hlatch]
  exact if_pos hunmasked

theorem unmask_of_none {k : Fin 4} (h : u.released old k = none) : unmask old u k = u := by
  cases hunmasked : u.unmasked old k with
  | false => exact if_neg (Bool.eq_false_iff.mp hunmasked)
  | true =>
    have hlatch : tget u.latches k = none := by rwa [released, if_pos hunmasked] at h
    rw [unmask, hlatch]
    exact if_pos hunmasked

/-- Unmasking distinct classes one after another is emptying their latches at once and then offering what they release, in
the same order: no class's release touches another's latch. -/
theorem foldl_unmask {ks : List (Fin 4)} (hdistinct : ks.Nodup) : ks.foldl (unmask old) u =
    (ks.filterMap (u.released old)).foldl (fun v q => v.offer q) (u.emptied old ks) := by
  induction ks generalizing u with
  | nil => rw [emptied_nil]; rfl
  | cons k ks ih =>
    obtain ⟨hk, hdistinct⟩ := List.nodup_cons.mp hdistinct
    rw [List.foldl_cons, ih _ hdistinct, emptied_cons, List.filterMap_cons]
    cases hreleased : u.released old k with
    | none => rw [unmask_of_none old u hreleased, emptied_singleton_of_none old u hreleased]
    | some q =>
      have hothers : ks.filterMap ((u.emptied old [k]).released old) = ks.filterMap (u.released old) :=
        List.filterMap_congr fun j hj =>
          released_emptied old u (List.mem_singleton.not.mpr fun hjk => hk (hjk ▸ hj))
      rw [unmask_of_released old u hreleased, offer_released, hothers, offer_emptied, List.foldl_cons]

end EventUnit

/-! ## SET_MASK carried out -/

/-- A mask byte's class flags stand in its low seven bits, so its retained classes' flags are those of the byte. -/
theorem getLsbD_maskByte (m : Byte) (k : Fin 4) : (m.setWidth 7).getLsbD k = m.getLsbD k := by
  have hk : k.val < 7 := by omega
  simp [hk]

theorem exec_setMask {e : Envelope} {rest : List Envelope} {more : List (List Envelope)} {s : State} {m : Byte}
    (h : FrontRequest e rest more s) (hkind : e.kind = 5) (hbody : e.body = [m]) :
    exec .setMask s =
      .next (answered e rest more .accepted .empty { s with ev := s.ev.setMask (m.setWidth 7) }) := by
  have hfront : exec .setMask s = .next (runSetMask e (withoutFront rest more s)) := carryOut_front runSetMask h hkind
  have hdecoded : decodeMask e.body = .ok (m.setWidth 7) := by rw [hbody]; rfl
  rw [hfront, runSetMask, judged_of_admits hdecoded rfl]
  rfl

/-- Settles O41: the retained classes are distinct, so unmasking them in ascending class number releases exactly what their
latches held before. -/
theorem setMaskOffersLatchedEvents : Obligations.SetMaskOffersLatchedEvents := by
  intro e rest more s m hfront hkind hbody unmasked
  have hunmasked : EventUnit.unmasked s.ev.mask { s.ev with mask := m.setWidth 7 } = unmasked := by
    funext k
    rw [EventUnit.unmasked, getLsbD_maskByte]
  have hreleased : EventUnit.released s.ev.mask { s.ev with mask := m.setWidth 7 } =
      fun k => if unmasked k then tget s.ev.latches k else none := by
    funext k
    rw [EventUnit.released, hunmasked]
  rw [exec_setMask hfront hkind hbody, EventUnit.setMask, EventUnit.foldl_unmask _ _ (List.nodup_finRange 4), hreleased]
  simp only [EventUnit.emptied, hunmasked, List.mem_finRange, true_and]

end Sys2Proof.Machine
end

section
/-! SUPPORT. The range checks of bodies: what the first failing field is, and that a body whose checks pass is in range (R11, R68,
R91, R172). -/

namespace Sys2Proof.Machine

/-! ## The first failing check of a list in field-number order -/

theorem firstBad_cons (n : Nat) (ok : Bool) (checks : List (Nat × Bool)) :
    firstBad ((n, ok) :: checks) = if ok = true then firstBad checks else some n := by
  cases ok <;> simp [firstBad]

/-- Checks in ascending field number name the least number of a check that fails (R11). -/
theorem firstBad_eq_some_iff {checks : List (Nat × Bool)} (hasc : (checks.map Prod.fst).Pairwise (· < ·)) {f : Nat} :
    firstBad checks = some f ↔ FirstFailing (fun g => (g, false) ∈ checks) f := by
  induction checks with
  | nil => simp [firstBad, FirstFailing]
  | cons check checks ih =>
    obtain ⟨n, ok⟩ := check
    obtain ⟨hn, hrest⟩ := List.pairwise_cons.mp hasc
    have hlater : ∀ {g}, (g, false) ∈ checks → n < g := fun hg => hn _ (List.mem_map_of_mem (f := Prod.fst) hg)
    rw [firstBad_cons]
    cases ok with
    | true => simp [ih hrest, FirstFailing]
    | false =>
      simp only [Bool.false_eq_true, if_false, Option.some.injEq, FirstFailing, List.mem_cons, Prod.mk.injEq, and_true]
      constructor
      · rintro rfl
        refine ⟨.inl rfl, fun g hg hfail => ?_⟩
        rcases hfail with rfl | hfail
        · omega
        · have := hlater hfail
          omega
      · rintro ⟨rfl | hfail, hleast⟩
        · rfl
        · exact absurd (.inl rfl) (hleast n (hlater hfail))

theorem firstFailing_congr {p q : Nat → Prop} (h : ∀ g, p g ↔ q g) (f : Nat) : FirstFailing p f ↔ FirstFailing q f := by
  simp only [FirstFailing, h]

/-- The checks of a body name the first failing field, when they are in field-number order and each fails as its field does. -/
theorem firstBad_iff_firstFailing {checks : List (Nat × Bool)} {fails : Nat → Prop}
    (hasc : (checks.map Prod.fst).Pairwise (· < ·)) (hfails : ∀ g, (g, false) ∈ checks ↔ fails g) (f : Nat) :
    firstBad checks = some f ↔ FirstFailing fails f :=
  (firstBad_eq_some_iff hasc).trans (firstFailing_congr hfails f)

/-- The failing checks of a list, one after another. -/
theorem mem_checks_cons (f n : Nat) (ok : Bool) (checks : List (Nat × Bool)) :
    (f, false) ∈ (n, ok) :: checks ↔ f = n ∧ ok = false ∨ (f, false) ∈ checks := by
  rw [List.mem_cons, Prod.mk.injEq, eq_comm (a := false)]

theorem mem_checks_nil (f : Nat) : (f, false) ∈ ([] : List (Nat × Bool)) ↔ False := by simp

theorem within_eq_false {lo hi x : Int} : within lo hi x = false ↔ ¬ (lo ≤ x ∧ x ≤ hi) := by
  rw [← within_iff, Bool.not_eq_true]

/-! ## Axis bodies (R11) -/

/-- The failing checks of a load section (R11). -/
theorem loadChecks_iff (l : LoadSection) (f : Nat) : (f, false) ∈ l.checks ↔
    f = 11 ∧ ¬ (1 ≤ l.gain ∧ l.gain ≤ 65535) ∨ f = 12 ∧ ¬ (-32768 ≤ l.tareOffset ∧ l.tareOffset ≤ 32767) ∨
    f = 13 ∧ ¬ (1 ≤ l.overload ∧ l.overload ≤ 1000000) ∨ f = 14 ∧ ¬ (0 ≤ l.slack ∧ l.slack < l.overload) ∨
    f = 15 ∧ ¬ (0 ≤ l.snagBand ∧ l.snagBand ≤ 1000000) ∨
    f = 16 ∧ l.filterLen ≠ 1 ∧ l.filterLen ≠ 2 ∧ l.filterLen ≠ 4 ∧ l.filterLen ≠ 8 := by
  simp only [LoadSection.checks, mem_checks_cons, mem_checks_nil, or_false, within_eq_false, Int.le_sub_one_iff,
    Bool.or_eq_false_iff, beq_eq_false_iff_ne, and_assoc, ne_eq]

/-- The checks of an axis body are those of its fixed fields and those of its load section. -/
theorem axisChecks_eq (b : AxisBody) :
    b.checks = AxisBody.checks { b with load := none } ++ b.load.elim [] LoadSection.checks := by
  cases h : b.load <;> simp [AxisBody.checks, h]

theorem axisChecks_iff (b : AxisBody) (f : Nat) : (f, false) ∈ b.checks ↔ b.Fails f := by
  have hload : (f, false) ∈ b.load.elim [] LoadSection.checks ↔ ∃ l, b.load = some l ∧ (f, false) ∈ l.checks := by
    cases b.load <;> simp
  rw [axisChecks_eq, List.mem_append, hload]
  simp only [AxisBody.checks, List.append_nil, loadChecks_iff, mem_checks_cons, mem_checks_nil, or_false,
    within_eq_false, AxisBody.Fails, Int.add_one_le_iff, or_assoc]

theorem axisChecks_ascending (b : AxisBody) : (b.checks.map Prod.fst).Pairwise (· < ·) := by
  cases h : b.load <;> simp [AxisBody.checks, LoadSection.checks, h]

theorem loadInRange_iff (l : LoadSection) : (∀ c ∈ l.checks, c.2 = true) ↔ l.InRange := by
  simp only [LoadSection.checks, List.forall_mem_cons, List.not_mem_nil, within_iff, Int.le_sub_one_iff, Bool.or_eq_true,
    beq_iff_eq, or_assoc]
  constructor
  · rintro ⟨gain, tareOffset, overload, slack, snagBand, filterLen, -⟩
    exact ⟨gain, tareOffset, overload, slack, snagBand, filterLen⟩
  · rintro ⟨gain, tareOffset, overload, slack, snagBand, filterLen⟩
    exact ⟨gain, tareOffset, overload, slack, snagBand, filterLen, nofun⟩

theorem axisInRange_iff (b : AxisBody) : firstBad b.checks = none ↔ b.InRange := by
  have hload : (∀ c ∈ b.load.elim [] LoadSection.checks, c.2 = true) ↔ ∀ l, b.load = some l → l.InRange := by
    simp only [← loadInRange_iff]
    cases b.load <;> simp
  rw [firstBad_eq_none, axisChecks_eq, List.forall_mem_append, hload]
  simp only [AxisBody.checks, List.append_nil, List.forall_mem_cons, List.not_mem_nil, within_iff, Int.add_one_le_iff]
  constructor
  · rintro ⟨⟨lower, limits, vmax, amax, sdec, hang, crown, followTol, captureWin, trackWin, -⟩, load⟩
    exact ⟨lower.1, limits.1, limits.2, vmax, amax, sdec, hang, crown, followTol, captureWin, trackWin, load⟩
  · rintro ⟨lower, limits, upper, vmax, amax, sdec, hang, crown, followTol, captureWin, trackWin, load⟩
    exact ⟨⟨⟨lower, by omega⟩, ⟨limits, upper⟩, vmax, amax, sdec, hang, crown, followTol, captureWin, trackWin, nofun⟩, load⟩

/-! ## Settings (R172) -/

theorem settingsChecks_iff (r : Settings) (f : Nat) : (f, false) ∈ r.checks ↔ r.Fails f := by
  simp only [Settings.checks, mem_checks_cons, mem_checks_nil, or_false, within_eq_false, decide_eq_false_iff_not,
    Settings.Fails]
  have hgrace : ¬ (r.grace ≤ 20 ∧ 2 * r.grace ≤ r.period) ↔ 20 < r.grace ∨ r.period < 2 * r.grace := by omega
  rw [hgrace]

theorem settingsInRange_iff (r : Settings) : firstBad r.checks = none ↔ r.InRange := by
  simp only [firstBad_eq_none, Settings.checks, List.forall_mem_cons, List.not_mem_nil, within_iff, decide_eq_true_eq]
  constructor
  · rintro ⟨node, period, grace, lagDepth, commissionCap, brakeSettle, -⟩
    exact ⟨node, period, grace, lagDepth, commissionCap, brakeSettle⟩
  · rintro ⟨node, period, grace, lagDepth, commissionCap, brakeSettle⟩
    exact ⟨node, period, grace, lagDepth, commissionCap, brakeSettle, nofun⟩

/-! ## Pair bodies (R68) -/

theorem pairChecks_iff (b : PairFields) (f : Nat) : (f, false) ∈ b.checks ↔ b.Fails f := by
  simp only [PairFields.checks, mem_checks_cons, mem_checks_nil, or_false, within_eq_false, decide_eq_false_iff_not,
    PairFields.Fails]
  have hupper : ¬ b.upper < 128 ↔ 127 < b.upper := by omega
  have hlower : ¬ (b.lower < 128 ∧ b.lower ≠ b.upper) ↔ 127 < b.lower ∨ b.lower = b.upper := by omega
  rw [hupper, hlower]

theorem pairFields_body_eq_some {f : PairFields} {b : PairBody} : f.body = some b ↔
    b.upper.val = f.upper ∧ b.lower.val = f.lower ∧ b.gap = f.gap ∧ b.warn = f.warn := by
  obtain ⟨u, l, gap, warn⟩ := b
  unfold PairFields.body
  split
  next u' l' hu hl =>
    rw [toIndex_eq_some] at hu hl
    simp only [Option.some.injEq, PairBody.mk.injEq, ← hu, ← hl, Fin.ext_iff, eq_comm]
  next hnone =>
    simp only [reduceCtorEq, false_iff]
    rintro ⟨hu, hl, -⟩
    exact hnone u l ((toIndex_eq_some u).mpr hu) ((toIndex_eq_some l).mpr hl)

theorem pairChecks_pass_iff (f : PairFields) : firstBad f.checks = none ↔
    f.upper < 128 ∧ (f.lower < 128 ∧ f.lower ≠ f.upper) ∧ (0 ≤ f.gap ∧ f.gap ≤ 10000000) ∧ 0 ≤ f.warn ∧ f.warn ≤ 1000000 := by
  simp only [firstBad_eq_none, PairFields.checks, List.forall_mem_cons, List.not_mem_nil, within_iff, decide_eq_true_eq]
  simp

theorem pairInRange_iff {f : PairFields} {b : PairBody} (hbody : f.body = some b) :
    firstBad f.checks = none ↔ b.InRange := by
  obtain ⟨hupper, hlower, hgap, hwarn⟩ := pairFields_body_eq_some.mp hbody
  rw [pairChecks_pass_iff, ← hupper, ← hlower, ← hgap, ← hwarn]
  constructor
  · rintro ⟨-, ⟨-, haxes⟩, gap, warn⟩
    exact ⟨fun h => haxes (by rw [h]), gap, warn⟩
  · rintro ⟨haxes, gap, warn⟩
    exact ⟨b.upper.isLt, ⟨b.lower.isLt, fun h => haxes (Fin.ext h.symm)⟩, gap, warn⟩

theorem exists_pairBody {f : PairFields} (h : firstBad f.checks = none) : ∃ b, f.body = some b := by
  obtain ⟨hupper, ⟨hlower, -⟩, -⟩ := (pairChecks_pass_iff f).mp h
  exact ⟨⟨⟨f.upper, hupper⟩, ⟨f.lower, hlower⟩, f.gap, f.warn⟩, pairFields_body_eq_some.mpr ⟨rfl, rfl, rfl, rfl⟩⟩

/-! ## Interlock bodies (R91) -/

theorem levelOf_eq_none_iff (n : Nat) : levelOf n = none ↔ n ≠ 0 ∧ n ≠ 1 := by
  unfold levelOf
  split <;> simp_all

theorem actionOf_eq_none_iff (cap : Int) (n : Nat) : actionOf cap n = none ↔ ¬ (1 ≤ n ∧ n ≤ 4) := by
  unfold actionOf
  split
  case h_5 h1 h2 h3 h4 =>
    simp only [true_iff]
    intro h
    have : n = 1 ∨ n = 2 ∨ n = 3 ∨ n = 4 := by omega
    rcases this with rfl | rfl | rfl | rfl <;> contradiction
  all_goals simp

theorem actionOf_slow {cap v : Int} {n : Nat} (h : actionOf cap n = some (.slow v)) : n = 2 ∧ cap = v := by
  unfold actionOf at h
  split at h <;> simp_all

theorem toSet_eq_none_iff (l : AxisList) : l.toSet = none ↔ ∃ ns, l = .numbers ns ∧ ∃ n ∈ ns, 127 < n := by
  cases l with
  | all => simp [AxisList.toSet]
  | numbers ns =>
    simp only [AxisList.toSet, AxisList.numbers.injEq, exists_eq_left']
    split
    next h =>
      simp only [List.all_eq_true, decide_eq_true_eq] at h
      simp only [reduceCtorEq, false_iff, not_exists, not_and]
      intro n hn
      have := h n hn
      omega
    next h =>
      simp only [List.all_eq_true, decide_eq_true_eq, not_forall] at h
      obtain ⟨n, hn, hlt⟩ := h
      simp only [true_iff]
      exact ⟨n, hn, by omega⟩

theorem interlockChecks_iff (b : InterlockFields) (f : Nat) : (f, false) ∈ b.checks ↔ b.Fails f := by
  simp only [InterlockFields.checks, mem_checks_cons, mem_checks_nil, or_false, within_eq_false, decide_eq_false_iff_not,
    Option.isSome_eq_false_iff, Option.isNone_iff_eq_none, levelOf_eq_none_iff, actionOf_eq_none_iff, toSet_eq_none_iff,
    Bool.or_eq_false_iff, bne_eq_false_iff_eq, InterlockFields.Fails, not_le]

/-- The axes of a list stand in ascending order without repeats (R101). -/
theorem toSet_ascending {l : AxisList} {axes : List Axis} (h : l.toSet = some (.list axes)) : axes.Pairwise (· < ·) := by
  cases l with
  | all => simp [AxisList.toSet] at h
  | numbers ns =>
    simp only [AxisList.toSet] at h
    split at h
    · cases h
      exact (List.pairwise_lt_finRange 128).filter _
    · cases h

theorem interlockFields_body_eq_some {f : InterlockFields} {b : InterlockBody} : f.body = some b ↔
    levelOf f.level = some b.activeLevel ∧ actionOf f.cap f.action = some b.action ∧ f.axes.toSet = some b.axes ∧
      b.settleTime = f.settleTime := by
  obtain ⟨level, action, axes, settleTime⟩ := b
  unfold InterlockFields.body
  split
  next hlevel haction haxes => simp [hlevel, haction, haxes, eq_comm]
  next hnone =>
    simp only [reduceCtorEq, false_iff]
    rintro ⟨hlevel, haction, haxes, -⟩
    exact hnone _ _ _ hlevel haction haxes

theorem interlockChecks_pass_iff (f : InterlockFields) : firstBad f.checks = none ↔
    levelOf f.level ≠ none ∧ actionOf f.cap f.action ≠ none ∧ (f.action = 2 → 0 ≤ f.cap ∧ f.cap ≤ 20000) ∧
      f.axes.toSet ≠ none ∧ f.settleTime ≤ 255 := by
  simp only [firstBad_eq_none, InterlockFields.checks, List.forall_mem_cons, List.not_mem_nil, within_iff, decide_eq_true_eq,
    Option.isSome_iff_ne_none, Bool.or_eq_true, bne_iff_ne, ← imp_iff_not_or]
  simp

theorem interlockInRange_iff {f : InterlockFields} {b : InterlockBody} (hbody : f.body = some b) :
    firstBad f.checks = none ↔ b.InRange := by
  obtain ⟨hlevel, haction, haxes, hsettle⟩ := interlockFields_body_eq_some.mp hbody
  rw [interlockChecks_pass_iff, hlevel, haction, haxes, ← hsettle]
  constructor
  · rintro ⟨-, -, hcap, -, settleTime⟩
    refine ⟨fun cap hslow => ?_, fun axes hlist => toSet_ascending (haxes.trans (by rw [hlist])), settleTime⟩
    obtain ⟨htwo, rfl⟩ := actionOf_slow (haction.trans (by rw [hslow]))
    exact hcap htwo
  · rintro ⟨hcap, -, settleTime⟩
    refine ⟨nofun, nofun, fun htwo => hcap f.cap ?_, nofun, settleTime⟩
    rw [htwo] at haction
    exact (Option.some.inj haction).symm

theorem exists_interlockBody {f : InterlockFields} (h : firstBad f.checks = none) : ∃ b, f.body = some b := by
  obtain ⟨hlevel, haction, -, haxes, -⟩ := (interlockChecks_pass_iff f).mp h
  obtain ⟨level, hlevel⟩ := Option.ne_none_iff_exists'.mp hlevel
  obtain ⟨action, haction⟩ := Option.ne_none_iff_exists'.mp haction
  obtain ⟨axes, haxes⟩ := Option.ne_none_iff_exists'.mp haxes
  exact ⟨⟨level, action, axes, f.settleTime⟩, interlockFields_body_eq_some.mpr ⟨hlevel, haction, haxes, rfl⟩⟩

/-- Settles O45: each list of checks is in field-number order and its checks fail as the fields do. -/
theorem rangeChecksFollowTables : Obligations.RangeChecksFollowTables := by
  refine ⟨fun b f => ?_, fun b f => ?_, fun b f => ?_, fun r f => ?_, axisInRange_iff, settingsInRange_iff,
    fun f => ⟨fun h => ?_, fun b hbody => (pairInRange_iff hbody).mpr⟩,
    fun f => ⟨fun h => ?_, fun b hbody => (interlockInRange_iff hbody).mpr⟩⟩
  · exact firstBad_iff_firstFailing (axisChecks_ascending b) (axisChecks_iff b) f
  · exact firstBad_iff_firstFailing (by simp [PairFields.checks]) (pairChecks_iff b) f
  · exact firstBad_iff_firstFailing (by simp [InterlockFields.checks]) (interlockChecks_iff b) f
  · exact firstBad_iff_firstFailing (by simp [Settings.checks]) (settingsChecks_iff r) f
  · obtain ⟨b, hbody⟩ := exists_pairBody h
    exact ⟨b, hbody, (pairInRange_iff hbody).mp h, pairFields_body_eq_some.mp hbody⟩
  · obtain ⟨b, hbody⟩ := exists_interlockBody h
    obtain ⟨-, -, -, hsettle⟩ := interlockFields_body_eq_some.mp hbody
    exact ⟨b, hbody, (interlockInRange_iff hbody).mp h, hsettle⟩

end Sys2Proof.Machine
end

section
/-! SUPPORT. What carrying out one request can do, said once for all twenty kinds: a request is refused, and then changes nothing
but its answer and the PROTECTION of a refusal PROTECTED, or it is accepted with the one effect of its kind (R163 to R173). -/

namespace Sys2Proof.Machine

/-- `Accepts s c u`: an accepted request of the command `c` takes the part from `s` to `u`, its answer not yet queued. Each
constructor carries what the request's own checks have found. -/
inductive Accepts (s : State) : Instr → State → Prop
  | read {c : Instr} (h : c = .getEntry ∨ c = .getAxis ∨ c = .getSettings) : Accepts s c s
  | mode (m : Mode) (hm : m ≠ .start) : Accepts s .mode (abortTare .mode { s with req := { s.req with mode := m } })
  | setMask (m : BitVec 7) : Accepts s .setMask { s with ev := s.ev.setMask m }
  | halt (axes : AxisSet) : Accepts s .haltAxes (raiseAll ((tzip s.ctx).filterMap (haltedEvent axes))
      (mapCtx (fun a c => if axes.covers a then c.halted else c) s))
  | clearFault (x : Axis) (hstate : (ctxOf s x).state = .faulted) : Accepts s .clearFault (setCtx x AxisCtx.locating s)
  | restart (hstill : anyMoving s = false) : Accepts s .restart (settleAllDue (restartOwners s))
  | putPair (i : PairIndex) (f : PairFields) (b : PairBody) (hchecks : firstBad f.checks = none) (hbody : f.body = some b)
      (honce : duplicateOf s i b = none) (hopen : ¬ Protected s (tget s.pairTab i).locked) :
      Accepts s .putPair (writePair i b s)
  | putLine (l : Line) (f : InterlockFields) (b : InterlockBody) (hchecks : firstBad f.checks = none)
      (hbody : f.body = some b) (hopen : ¬ Protected s (tget s.lineTab l).locked) : Accepts s .putInterlock (writeLine l b s)
  | putAxis (x : Axis) (b : AxisBody) (hchecks : firstBad b.checks = none) (hcue : (ctxOf s x).state.inCue = false)
      (htare : underTare s x = false) (hlimits : parkedOutside (ctxOf s x) b = none)
      (hopen : ¬ Protected s (tget s.axisTab x).locked) : Accepts s .putAxis (writeAxis x b s)
  | eraseAxis (x : Axis) (hcue : (ctxOf s x).state.inCue = false) (htare : underTare s x = false)
      (hopen : ¬ Protected s (tget s.axisTab x).locked) : Accepts s .eraseEntry (eraseAxis x s)
  | erasePair (i : PairIndex) (hopen : ¬ Protected s (tget s.pairTab i).locked) : Accepts s .eraseEntry (erasePair i s)
  | eraseLine (l : Line) (hopen : ¬ Protected s (tget s.lineTab l).locked) : Accepts s .eraseEntry (eraseLine l s)
  | putSettings (r : Settings) (hchecks : firstBad r.checks = none) (hcue : someAxis AxisState.inCue s.ctx = false) :
      Accepts s .putSettings (writeSettings r s)
  | lockAxis {c : Instr} (h : c = .lockEntry ∨ c = .unlockEntry) (flag : Bool) (x : Axis)
      (hbody : (tget s.axisTab x).body ≠ none) (hmode : s.req.mode = .commission) :
      Accepts s c (setAxisEntry x { tget s.axisTab x with locked := flag } s)
  | lockPair {c : Instr} (h : c = .lockEntry ∨ c = .unlockEntry) (flag : Bool) (i : PairIndex)
      (hbody : (tget s.pairTab i).body ≠ none) (hmode : s.req.mode = .commission) :
      Accepts s c (setPairEntry i { tget s.pairTab i with locked := flag } s)
  | lockLine {c : Instr} (h : c = .lockEntry ∨ c = .unlockEntry) (flag : Bool) (l : Line)
      (hbody : (tget s.lineTab l).body ≠ none) (hmode : s.req.mode = .commission) :
      Accepts s c (setLineEntry l { tget s.lineTab l with locked := flag } s)
  | tare (x : Axis) (hload : loadOfAxis s x ≠ none) (hstate : (ctxOf s x).state = .parked) (hidle : s.tare = none)
      (hmode : s.req.mode = .commission) :
      Accepts s .tare { s with tare := some { axis := x, stage := 0, count := 0, sum := 0 } }
  | untare (x : Axis) (hload : loadOfAxis s x ≠ none) (htare : underTare s x = false) (hmode : s.req.mode = .commission) :
      Accepts s .untare (untareAxis x s)
  | stage (l : AxisList) (cue : Word16) (axes : AxisSet) (haxes : l.toSet = some axes) (hempty : s.staged = none)
      (hstates : axes.members.findSome? (stageRefusal s) = none) :
      Accepts s .stageCue { s with staged := some { number := cue, axes := axes.members } }
  | take (g : CueGroup) (hstaged : s.staged = some g) : Accepts s .takeCue
      (informTare (raiseAll ((tzip s.ctx).filterMap (releasedEvent g.axes))
        (mapCtx (fun a c => c.handover s.settings.brakeSettle (g.axes.contains a)) { s with active := some g, staged := none })))
  | drop : Accepts s .dropCue { s with staged := none }

/-- Everything that carrying out the request `e` by the command `c` can make of the part, the request having been taken from the
accepted frames (R162, R163). -/
inductive Carried (c : Instr) (e : Envelope) (s : State) : State → Prop
  | refused (result : Result) (body : AnswerBody) (h : result ≠ .accepted) : Carried c e s (answer e result body s)
  | shielded (table : TableCode) (index : Nat) : Carried c e s (refuseProtected e table index s)
  | accepted (body : AnswerBody) (u : State) (h : Accepts s c u) : Carried c e s (answer e .accepted body u)

namespace Carried
variable {c : Instr} {e : Envelope} {s : State}

theorem refuse {result : Result} (h : result ≠ .accepted) : Carried c e s (refuse e result s) := .refused result .empty h

theorem refuseField (field : Nat) : Carried c e s (refuseField e field s) := .refused .badField _ (by decide)

theorem accept {u : State} (h : Accepts s c u) : Carried c e s (accept e u) := .accepted .empty u h

theorem judged {α : Type} {g : RequestGroup} {decoded : Except Nat α} {own : α → State → State}
    (hown : ∀ x, g.admits s.req.mode = true → Carried c e s (own x s)) : Carried c e s (judged e g decoded own s) :=
  judged_ind refuseField (refuse (by decide)) (fun x _ hadmits => hown x hadmits)

theorem indexed {n k : Nat} {own : Fin n → State → State} (hown : ∀ i, Carried c e s (own i s)) :
    Carried c e s (indexed n e k own s) := indexed_ind (refuse (by decide)) (fun i _ => hown i)

theorem guarded {table : TableCode} {index : Nat} {locked : Bool} {own : State → State}
    (hown : ¬ Protected s locked → Carried c e s (own s)) : Carried c e s (guarded e table index locked own s) :=
  guarded_ind (.shielded table index) hown

end Carried

section
variable (e : Envelope) (s : State)

theorem carried_mode : Carried .mode e s (runMode e s) := by
  refine .judged fun target _ => ?_
  unfold judgeMode
  split
  · exact .refuseField 1
  · exact .accept (.mode _ (by decide))
  · exact .refuse (by decide)
  · split
    · exact .refuse (by decide)
    · split
      · exact .refuse (by decide)
      · exact .accept (.mode _ (by decide))
  · split
    · exact .refuse (by decide)
    · exact .accept (.mode _ (by decide))
  · exact .accept (.mode _ (by decide))
  · exact .accept (.mode _ (by decide))

theorem carried_getEntry : Carried .getEntry e s (runGetEntry e s) := by
  refine .judged fun ref _ => ?_
  unfold judgeGetEntry
  split <;> exact .indexed fun _ => .accepted _ s (.read (.inl rfl))

theorem carried_getAxis : Carried .getAxis e s (runGetAxis e s) :=
  .judged fun _ _ => .indexed fun _ => .accepted _ s (.read (.inr (.inl rfl)))

theorem carried_getSettings : Carried .getSettings e s (runGetSettings e s) :=
  .judged fun _ _ => .accepted _ s (.read (.inr (.inr rfl)))

theorem carried_setMask : Carried .setMask e s (runSetMask e s) := .judged fun m _ => .accept (.setMask m)

theorem carried_haltAxes : Carried .haltAxes e s (runHaltAxes e s) := by
  refine .judged fun l _ => ?_
  unfold judgeHalt
  split
  · exact .refuseField 1
  · exact .accepted _ _ (.halt _)

theorem carried_clearFault : Carried .clearFault e s (runClearFault e s) := by
  refine .judged fun _ _ => .indexed fun x => ?_
  unfold judgeClearFault
  split
  · exact .accept (.clearFault x (by assumption))
  · exact .refuse (by decide)

theorem carried_restart : Carried .restart e s (runRestart e s) := by
  refine .judged fun _ _ => ?_
  unfold judgeRestart
  split
  · exact .refuse (by decide)
  · exact .accept (.restart (Bool.eq_false_iff.mpr (by assumption)))

theorem carried_putPair : Carried .putPair e s (runPutPair e s) := by
  refine .judged fun op _ => .indexed fun i => .guarded fun hopen => ?_
  unfold judgePairBody
  rcases checkedBody_cases op.2.checks op.2.body with ⟨b, hchecks, hbody, h⟩ | ⟨field, -, h⟩ <;> rw [h]
  · dsimp only
    split
    · exact .refused _ _ (by decide)
    · exact .accept (.putPair i op.2 b hchecks hbody (by assumption) hopen)
  · exact .refuseField field

theorem carried_putInterlock : Carried .putInterlock e s (runPutInterlock e s) := by
  refine .judged fun op _ => .indexed fun l => .guarded fun hopen => ?_
  unfold judgeLineBody
  rcases checkedBody_cases op.2.checks op.2.body with ⟨b, hchecks, hbody, h⟩ | ⟨field, -, h⟩ <;> rw [h]
  · exact .accept (.putLine l op.2 b hchecks hbody hopen)
  · exact .refuseField field

theorem carried_putAxis : Carried .putAxis e s (runPutAxis e s) := by
  refine .judged fun op _ => .indexed fun x => .guarded fun hopen => ?_
  unfold judgeAxisBody
  split
  · exact .refuseField _
  · split
    · exact .refuse (by decide)
    · split
      · exact .refuse (by decide)
      · split
        · exact .refused _ _ (by decide)
        · exact .accept (.putAxis x op.2 (by assumption) (Bool.eq_false_iff.mpr (by assumption))
            (Bool.eq_false_iff.mpr (by assumption)) (by assumption) hopen)

theorem carried_eraseAxis {x : Axis} (hopen : ¬ Protected s (tget s.axisTab x).locked) :
    Carried .eraseEntry e s (judgeEraseAxis e x s) := by
  unfold judgeEraseAxis
  split
  · exact .refuse (by decide)
  · split
    · exact .refuse (by decide)
    · split
      · exact .refuse (by decide)
      · exact .accept (.eraseAxis x (Bool.eq_false_iff.mpr (by assumption)) (Bool.eq_false_iff.mpr (by assumption)) hopen)

theorem carried_eraseEntry : Carried .eraseEntry e s (runEraseEntry e s) := by
  refine .judged fun ref _ => ?_
  unfold judgeErase
  split
  · exact .indexed fun x => .guarded fun hopen => carried_eraseAxis e s hopen
  · refine .indexed fun i => .guarded fun hopen => ?_
    unfold judgeErasePair
    split
    · exact .refuse (by decide)
    · exact .accept (.erasePair i hopen)
  · refine .indexed fun l => .guarded fun hopen => ?_
    unfold judgeEraseLine
    split
    · exact .refuse (by decide)
    · exact .accept (.eraseLine l hopen)

theorem carried_putSettings : Carried .putSettings e s (runPutSettings e s) := by
  refine .judged fun r _ => ?_
  unfold judgePutSettings
  split
  · exact .refuseField _
  · split
    · exact .refuse (by decide)
    · exact .accept (.putSettings r (by assumption) (Bool.eq_false_iff.mpr (by assumption)))

theorem carried_lock {c : Instr} (h : c = .lockEntry ∨ c = .unlockEntry) (flag : Bool) : Carried c e s (runLock flag e s) := by
  refine .judged fun ref hadmits => ?_
  have hmode : s.req.mode = .commission := structural_admits_iff.mp hadmits
  unfold judgeLock
  split
  · refine .indexed fun x => ?_
    unfold lockAxis
    split
    · exact .refuse (by decide)
    · exact .accept (.lockAxis h flag x (mt Option.isNone_iff_eq_none.mpr (by assumption)) hmode)
  · refine .indexed fun i => ?_
    unfold lockPair
    split
    · exact .refuse (by decide)
    · exact .accept (.lockPair h flag i (mt Option.isNone_iff_eq_none.mpr (by assumption)) hmode)
  · refine .indexed fun l => ?_
    unfold lockLine
    split
    · exact .refuse (by decide)
    · exact .accept (.lockLine h flag l (mt Option.isNone_iff_eq_none.mpr (by assumption)) hmode)

theorem carried_tare : Carried .tare e s (runTare e s) := by
  refine .judged fun _ hadmits => .indexed fun x => ?_
  have hmode : s.req.mode = .commission := structural_admits_iff.mp hadmits
  unfold judgeTare
  split
  · exact .refuse (by decide)
  · split
    · exact .refuse (by decide)
    · split
      · exact .refuse (by decide)
      · exact .accepted _ _ (.tare x (mt Option.isNone_iff_eq_none.mpr (by assumption))
          (by_contra (by assumption)) (Option.not_isSome_iff_eq_none.mp (by assumption)) hmode)

theorem carried_untare : Carried .untare e s (runUntare e s) := by
  refine .judged fun _ hadmits => .indexed fun x => ?_
  have hmode : s.req.mode = .commission := structural_admits_iff.mp hadmits
  unfold judgeUntare
  split
  · exact .refuse (by decide)
  · split
    · exact .refuse (by decide)
    · exact .accept (.untare x (mt Option.isNone_iff_eq_none.mpr (by assumption)) (Bool.eq_false_iff.mpr (by assumption)) hmode)

theorem stageRefusal_ne_accepted {a x : Axis} {r : Result} (h : stageRefusal s a = some (r, x)) : r ≠ .accepted := by
  unfold stageRefusal at h
  split at h <;> simp_all <;> simp [← h.1]

theorem carried_stageCue : Carried .stageCue e s (runStageCue e s) := by
  refine .judged fun op _ => ?_
  unfold judgeStage
  split
  · exact .refuseField 2
  · unfold judgeStageSet
    split
    · exact .refuse (by decide)
    · split
      next r a h =>
        obtain ⟨x, -, hx⟩ := List.exists_of_findSome?_eq_some h
        exact .refused _ _ (stageRefusal_ne_accepted s hx)
      next h => exact .accepted _ _ (.stage op.2 op.1 _ (by assumption) (Option.not_isSome_iff_eq_none.mp (by assumption)) h)

theorem carried_takeCue : Carried .takeCue e s (runTakeCue e s) := by
  refine .judged fun _ _ => ?_
  unfold judgeTake
  split
  · exact .refuse (by decide)
  · exact .accepted _ _ (.take _ (by assumption))

theorem carried_dropCue : Carried .dropCue e s (runDropCue e s) := .judged fun _ _ => .accepted _ _ .drop

theorem carried_unknownRequest : Carried .unknownRequest e s (refuse e .unknownRequest s) := .refuse (by decide)

end

/-- The commands that carry out a request (R162). -/
def isRequest : Instr → Bool
  | .mode | .getEntry | .getAxis | .getSettings | .setMask | .haltAxes | .clearFault | .restart | .putPair | .putInterlock
  | .putAxis | .eraseEntry | .putSettings | .lockEntry | .unlockEntry | .tare | .untare | .stageCue | .takeCue | .dropCue
  | .unknownRequest => true
  | _ => false

/-- A request command either finds no request that is its own, or carries out the front one (R162; log entry 5). -/
inductive RequestStep (c : Instr) (s : State) : State → Prop
  | idle : RequestStep c s s
  | carried {e : Envelope} {rest : List Envelope} {more : List (List Envelope)} {t : State}
      (hfront : FrontRequest e rest more s) (hcarried : Carried c e (withoutFront rest more s) t) : RequestStep c s t

theorem carryOut_step {c : Instr} {kind : Byte} {run : Envelope → State → State} (hrun : ∀ e u, Carried c e u (run e u))
    (s : State) : ∃ t, carryOut kind run s = .next t ∧ RequestStep c s t := by
  rcases carryOut_cases kind run s with h | ⟨e, rest, more, hfront, -, h⟩
  · exact ⟨s, h, .idle⟩
  · exact ⟨_, h, .carried hfront (hrun e _)⟩

/-- Everything that a request command can do (R162, R163). -/
theorem exec_requestStep {c : Instr} (hc : isRequest c = true) (s : State) : ∃ t, exec c s = .next t ∧ RequestStep c s t := by
  cases c
  case mode => exact carryOut_step carried_mode s
  case getEntry => exact carryOut_step carried_getEntry s
  case getAxis => exact carryOut_step carried_getAxis s
  case getSettings => exact carryOut_step carried_getSettings s
  case setMask => exact carryOut_step carried_setMask s
  case haltAxes => exact carryOut_step carried_haltAxes s
  case clearFault => exact carryOut_step carried_clearFault s
  case restart => exact carryOut_step carried_restart s
  case putPair => exact carryOut_step carried_putPair s
  case putInterlock => exact carryOut_step carried_putInterlock s
  case putAxis => exact carryOut_step carried_putAxis s
  case eraseEntry => exact carryOut_step carried_eraseEntry s
  case putSettings => exact carryOut_step carried_putSettings s
  case lockEntry => exact carryOut_step (fun e u => carried_lock e u (.inl rfl) true) s
  case unlockEntry => exact carryOut_step (fun e u => carried_lock e u (.inr rfl) false) s
  case tare => exact carryOut_step carried_tare s
  case untare => exact carryOut_step carried_untare s
  case stageCue => exact carryOut_step carried_stageCue s
  case takeCue => exact carryOut_step carried_takeCue s
  case dropCue => exact carryOut_step carried_dropCue s
  case unknownRequest =>
    change ∃ t, execUnknownRequest s = _ ∧ _
    unfold execUnknownRequest
    split
    next e u hnext =>
      obtain ⟨rest, more, hfront, rfl⟩ := nextRequest_some hnext
      split
      · exact ⟨_, rfl, .idle⟩
      · exact ⟨_, rfl, .carried hfront (carried_unknownRequest e _)⟩
    next => exact ⟨_, rfl, .idle⟩
  all_goals exact absurd hc Bool.false_ne_true

/-- A property that taking, answering and refusing a request keep is kept by every request command, when the accepted effects keep
it. -/
theorem exec_request_ind {P : State → Prop} {c : Instr} {s t : State} (hc : isRequest c = true) (h : exec c s = .next t)
    (hs : P s) (hfront : ∀ rest more, P (withoutFront rest more s))
    (hanswer : ∀ e result body u, P u → P (answer e result body u)) (hraise : ∀ ev u, P u → P (raise ev u))
    (haccepts : ∀ rest more u, Accepts (withoutFront rest more s) c u → P u) : P t := by
  obtain ⟨u, hu, hstep⟩ := exec_requestStep hc s
  obtain rfl : u = t := Host.Outcome.next.inj (hu.symm.trans h)
  cases hstep with
  | idle => exact hs
  | @carried _ rest more _ _ hcarried =>
    cases hcarried with
    | refused => exact hanswer _ _ _ _ (hfront rest more)
    | shielded => exact hanswer _ _ _ _ (hraise _ _ (hfront rest more))
    | accepted _ u haccept => exact hanswer _ _ _ _ (haccepts rest more u haccept)

end Sys2Proof.Machine
end

section
/-! SUPPORT. What each command can do, said once: the steps of the part's own blocks and of its ports beside the requests, each
with the conditions on which it is taken; and one step of the part as one command, its own work, or a tick (log entries 1, 2, 5
and 7). -/

namespace Sys2Proof.Machine

/-! ## The steps of the blocks and the ports -/

/-- The state in which POWER_ON_RESET settles the lines (R41, R87). -/
def resetOf (s : State) : State :=
  { State.reset with
    pending := s.pending, choices := s.choices, lines := tmap (fun _ x => LineState.unsettledAt x.raw 0) s.lines }

/-- The record at the head of the fixed ones placed in the frame in the engine (R45). -/
def placeRecord (e : Screening) (r : DownRecord) (rest : List DownRecord) (s : State) : State :=
  { (judgeAppend e.seq r s).1 with
    engine := some { e with nextAxis := 128, fixed := rest, placed := e.placed ++ [(judgeAppend e.seq r s).2] } }

/-- The next record of the feedback frame in hand taken (R112, R117). -/
def takeNextFeedback (r : FeedbackRecord) (rest : List FeedbackRecord) (more : List (List FeedbackRecord)) (s : State) : State :=
  let t := takeFeedbackRecord r { s with fb := { s.fb with frames := rest :: more } }
  { t with fb := t.fb.settleFrame }

/-- `BlockStep s c t`: the command `c`, which carries out no request, takes the part from `s` to `t`. Each constructor carries the
conditions on which the command takes its step. -/
inductive BlockStep (s : State) : Instr → State → Prop
  | nothing (c : Instr) : BlockStep s c s
  | reset : BlockStep s .powerOnReset (settleAllDue (resetOf s))
  | discarded (c : Instr) (port : Port) : BlockStep s c (emptyBuffer port s)
  | routed (c : Instr) (port : Port) (f : Frame) : BlockStep s c (route port f (emptyBuffer port s))
  | routedAt (c : Instr) (moment : Nat) (port : Port) (f : Frame) :
      BlockStep s c (route port f (emptyBuffer port (advanceTo moment s)))
  | deadline (m : EmissionMark) (hwaiting : s.cyc.cadence = .waiting) (htimer : s.cyc.timer = true)
      (hmark : s.cyc.mark = some m) : BlockStep s .deadlineExpiry (synthesise (advanceTo (m.moment + m.deadline) s))
  | record (e : Screening) (r : ConsoleRecord) (rest : List ConsoleRecord) (hengine : s.engine = some e)
      (htodo : e.todo = r :: rest) : BlockStep s .screenConsoleRecord (takeConsoleRecord r { e with todo := rest } s)
  | screened (e : Screening) (x : Axis) (hengine : s.engine = some e) (htodo : e.todo = []) (hreached : e.nextAxis ≤ x.val)
      (hscreenable : screenable s e x = true) :
      BlockStep s (.screenUnnamedAxis x) (screenAndFix x none { e with nextAxis := x.val + 1 } s)
  | passed (e : Screening) (x : Axis) (hengine : s.engine = some e) (htodo : e.todo = []) (hreached : e.nextAxis ≤ x.val) :
      BlockStep s (.screenUnnamedAxis x) { s with engine := some { e with nextAxis := x.val + 1 } }
  | placed (e : Screening) (r : DownRecord) (rest : List DownRecord) (hengine : s.engine = some e) (hfixed : e.fixed = r :: rest)
      (htodo : e.todo = []) (hscreened : AllScreened s e) : BlockStep s .outstandingAppend (placeRecord e r rest s)
  | emitted (e : Screening) (moment : Nat) (hengine : s.engine = some e) (htodo : e.todo = []) (hfixed : e.fixed = [])
      (hscreened : AllScreened s e) : BlockStep s (.emission moment) (emit e (advanceTo moment s))
  | feedback (r : FeedbackRecord) (rest : List FeedbackRecord) (more : List (List FeedbackRecord))
      (hframes : s.fb.frames = (r :: rest) :: more) : BlockStep s .feedbackRecord (takeNextFeedback r rest more s)
  | rawSame (moment : Nat) (l : Line) (level : Level) (hraw : (tget s.lines l).raw = level) :
      BlockStep s (.interlockRawChange moment l level) (advanceTo moment s)
  | rawChanged (moment : Nat) (l : Line) (level : Level) (hraw : (tget s.lines l).raw ≠ level) :
      BlockStep s (.interlockRawChange moment l level) (settleIfDue l (rawChanged l level (advanceTo moment s)))
  | settled (l : Line) (level : Level) (hpending : (tget s.lines l).pending = some level) :
      BlockStep s (.interlockSettle l) (settleLine l (advanceTo ((tget s.lines l).since + settleTicks s l) s))
  | reportDue : BlockStep s .reportTimerExpiry (restartReportTimer (advanceTo s.ev.reportDue s))
  | reportBuilt (hslot : s.up.slot = none) :
      BlockStep s .reportTimerExpiry (buildReport (restartReportTimer (advanceTo s.ev.reportDue s)))
  | downSent (x : DownSending) (htx : s.down.tx = some x) : BlockStep s .dPortSendDone { s with down := s.down.choose }
  | upSent (x : UpSending) (htx : s.up.tx = some x) : BlockStep s .cPortSendDone { s with up := s.up.choose }
  | reportSent (r : ReportFrame) (htx : s.up.tx = some (.report r)) :
      BlockStep s .cPortSendDone (clearReported r { s with up := s.up.choose })

/-- A command that carries out no request takes one of the steps of its block or port. -/
theorem exec_blockStep {c : Instr} (hc : isRequest c = false) (s : State) : ∃ t, exec c s = .next t ∧ BlockStep s c t := by
  cases c
  case powerOnReset => exact ⟨_, rfl, .reset⟩
  case corruptFrame port bytes =>
    change ∃ t, execCorruptFrame port bytes s = _ ∧ _
    unfold execCorruptFrame
    split
    · exact ⟨_, rfl, .discarded _ port⟩
    · exact ⟨_, rfl, .routed _ port _⟩
  case routerDiscard port f => exact ⟨_, rfl, .routed _ port f⟩
  case consoleSetpointFrame moment f => exact ⟨_, rfl, .routedAt _ moment .console (.setpoint f)⟩
  case feedbackFrame f => exact ⟨_, rfl, .routed _ .drive (.feedback f)⟩
  case driveReportFrame f => exact ⟨_, rfl, .routed _ .drive (.report f)⟩
  case manageFrame moment f => exact ⟨_, rfl, .routedAt _ moment .console (.manage f)⟩
  case foreignManageFrame f => exact ⟨_, rfl, .routed _ .console (.manage f)⟩
  case deadlineExpiry =>
    change ∃ t, execDeadlineExpiry s = _ ∧ _
    unfold execDeadlineExpiry
    split
    next m hwaiting htimer hmark => exact ⟨_, rfl, .deadline m hwaiting htimer hmark⟩
    next => exact ⟨_, rfl, .nothing _⟩
  case screenConsoleRecord =>
    change ∃ t, execScreenConsoleRecord s = _ ∧ _
    unfold execScreenConsoleRecord
    split
    next => exact ⟨_, rfl, .nothing _⟩
    next e hengine =>
      split
      next => exact ⟨_, rfl, .nothing _⟩
      next r rest htodo => exact ⟨_, rfl, .record e r rest hengine htodo⟩
  case screenUnnamedAxis x =>
    change ∃ t, execScreenUnnamedAxis x s = _ ∧ _
    unfold execScreenUnnamedAxis
    split
    next => exact ⟨_, rfl, .nothing _⟩
    next e hengine =>
      split
      next hreached =>
        obtain ⟨htodo, hreached, -⟩ := hreached
        rw [List.isEmpty_iff] at htodo
        split
        next hscreenable => exact ⟨_, rfl, .screened e x hengine htodo hreached hscreenable⟩
        next => exact ⟨_, rfl, .passed e x hengine htodo hreached⟩
      next => exact ⟨_, rfl, .nothing _⟩
  case outstandingAppend =>
    change ∃ t, execOutstandingAppend s = _ ∧ _
    unfold execOutstandingAppend
    split
    next => exact ⟨_, rfl, .nothing _⟩
    next e hengine =>
      split
      next => exact ⟨_, rfl, .nothing _⟩
      next r rest hfixed =>
        split
        next hscreened =>
          rw [List.isEmpty_iff, passes_iff] at hscreened
          exact ⟨_, rfl, .placed e r rest hengine hfixed hscreened.1 hscreened.2⟩
        next => exact ⟨_, rfl, .nothing _⟩
  case emission moment =>
    change ∃ t, execEmission moment s = _ ∧ _
    unfold execEmission
    split
    next => exact ⟨_, rfl, .nothing _⟩
    next e hengine =>
      split
      next hdone =>
        rw [List.isEmpty_iff, List.isEmpty_iff, passes_iff] at hdone
        exact ⟨_, rfl, .emitted e moment hengine hdone.1 hdone.2.1 hdone.2.2⟩
      next => exact ⟨_, rfl, .nothing _⟩
  case feedbackRecord =>
    change ∃ t, execFeedbackRecord s = _ ∧ _
    unfold execFeedbackRecord
    split
    next r rest more hframes => exact ⟨_, rfl, .feedback r rest more hframes⟩
    next => exact ⟨_, rfl, .nothing _⟩
  case interlockRawChange moment l level =>
    change ∃ t, execInterlockRawChange moment l level s = _ ∧ _
    unfold execInterlockRawChange
    dsimp only
    split
    next hraw => exact ⟨_, rfl, .rawSame moment l level hraw⟩
    next hraw => exact ⟨_, rfl, .rawChanged moment l level hraw⟩
  case interlockSettle l =>
    change ∃ t, execInterlockSettle l s = _ ∧ _
    unfold execInterlockSettle
    split
    next => exact ⟨_, rfl, .nothing _⟩
    next level hpending => exact ⟨_, rfl, .settled l level hpending⟩
  case reportTimerExpiry =>
    change ∃ t, execReportTimerExpiry s = _ ∧ _
    unfold execReportTimerExpiry
    dsimp only
    split
    next hslot => exact ⟨_, rfl, .reportBuilt (Option.isNone_iff_eq_none.mp hslot)⟩
    next => exact ⟨_, rfl, .reportDue⟩
  case dPortSendDone =>
    change ∃ t, execDPortSendDone s = _ ∧ _
    unfold execDPortSendDone
    split
    next => exact ⟨_, rfl, .nothing _⟩
    next x htx => exact ⟨_, rfl, .downSent x htx⟩
  case cPortSendDone =>
    change ∃ t, execCPortSendDone s = _ ∧ _
    unfold execCPortSendDone
    split
    next => exact ⟨_, rfl, .nothing _⟩
    next f htx => exact ⟨_, rfl, .upSent _ htx⟩
    next r htx => exact ⟨_, rfl, .reportSent r htx⟩
  all_goals exact absurd hc.symm Bool.false_ne_true

/-! ## Every command answers a next state -/

theorem exec_next (c : Instr) (s : State) : ∃ t, exec c s = .next t := by
  cases hc : isRequest c
  · obtain ⟨t, ht, -⟩ := exec_blockStep hc s
    exact ⟨t, ht⟩
  · obtain ⟨t, ht, -⟩ := exec_requestStep hc s
    exact ⟨t, ht⟩

/-- A property of states kept by each command in the way of its block, or of an accepted request of its kind. -/
theorem exec_ind {P : State → Prop} {c : Instr} {s t : State} (h : exec c s = .next t) (hs : P s)
    (hblock : ∀ u, BlockStep s c u → P u)
    (hfront : ∀ rest more, P (withoutFront rest more s))
    (hanswer : ∀ e result body u, P u → P (answer e result body u)) (hraise : ∀ ev u, P u → P (raise ev u))
    (haccepts : ∀ rest more u, Accepts (withoutFront rest more s) c u → P u) : P t := by
  cases hc : isRequest c
  · obtain ⟨u, hu, hstep⟩ := exec_blockStep hc s
    obtain rfl : u = t := Host.Outcome.next.inj (hu.symm.trans h)
    exact hblock u hstep
  · exact exec_request_ind hc h hs hfront hanswer hraise haccepts

/-! ## The steps that wait -/

theorem BlockStep.pending {s t : State} {c : Instr} (h : BlockStep s c t) : t.pending = s.pending := by
  cases h <;> simp [resetOf, placeRecord, takeNextFeedback]

theorem Accepts.pending {s t : State} {c : Instr} (h : Accepts s c t) : t.pending = s.pending := by
  cases h <;> simp [restartOwners]

theorem exec_pending {c : Instr} {s t : State} (h : exec c s = .next t) : t.pending = s.pending :=
  exec_ind (P := fun u => u.pending = s.pending) h rfl (fun _ => BlockStep.pending) (fun _ _ => rfl) (fun _ _ _ _ hu => hu)
    (fun _ _ hu => hu) (fun _ _ _ hu => hu.pending)

/-- Settles O2: every command answers a next state, and none of its steps touches the queue; on an empty queue the step is the
part's own work, or a tick. -/
theorem stepsAlwaysAnswerNext : Obligations.StepsAlwaysAnswerNext := by
  refine ⟨fun c s => ?_, fun s hpending => ?_⟩
  · obtain ⟨t, ht⟩ := exec_next c s
    exact ⟨t, ht, exec_pending ht⟩
  · have hstep : step s = .next (idle s) := by rw [step, hpending]
    constructor
    · intro hnone
      rw [hstep, idle, hnone]
      rfl
    · intro hsome
      rw [hstep, idle, if_neg (mt List.isEmpty_iff.mp hsome)]

/-- Settles O1: it is the definition of a step on a queue that is not empty. -/
theorem stepRunsFrontCommand : Obligations.StepRunsFrontCommand := by
  intro c rest s hpending
  rw [step, hpending]

/-- A property of states that neither waiting steps nor the clock bear on is kept by every step when every command keeps it. -/
theorem step_ind {P : State → Prop} {s t : State} (h : step s = .next t)
    (hnow : ∀ n, P { s with now := n }) (hpending : ∀ q, P { s with pending := q })
    (hexec : ∀ c q, exec c { s with pending := q } = .next t → P t) : P t := by
  unfold step at h
  split at h
  · cases h
    unfold idle
    split
    · exact hnow _
    · exact hpending _
  · exact hexec _ _ h

end Sys2Proof.Machine
end

section
/-! SUPPORT. One axis context with its record: the field rules, the bound of the step and the law of the soft limits together, and
that every operation on a context keeps them (R4, R19 to R28, R55). -/

namespace Sys2Proof.Machine

namespace AxisCtx

/-- A position and step within the soft limits of a record: an axis in a cue keeps its projected stopping position within them as
well (R55). -/
def InLimits (b : AxisBody) (state : AxisState) (p step : Int) : Prop :=
  (state = .parked ∨ state.inCue = true → b.lower ≤ p ∧ p ≤ b.upper) ∧
  (state.inCue = true → b.lower ≤ projection b.sdec ⟨p, step⟩ ∧ projection b.sdec ⟨p, step⟩ ≤ b.upper)

/-- The laws of one context under its axis's record and the lag depth: the field rules (R19, R28), a step of at most vmax (R4),
and the soft limits (R55). -/
structure Sound (body : Option AxisBody) (lagDepth : Nat) (c : AxisCtx) : Prop where
  lawful : c.Lawful body lagDepth
  step : ∀ b, body = some b → mag c.step ≤ b.vmax
  limits : ∀ b p, body = some b → c.pos = some p → InLimits b c.state p c.step

variable {body : Option AxisBody} {lagDepth : Nat} {c : AxisCtx}

/-! ## The soft limits -/

/-- At rest the projected stopping position is the position itself (R55). -/
theorem inLimits_rest {b : AxisBody} {state : AxisState} {p : Int} (h : b.lower ≤ p ∧ p ≤ b.upper) : InLimits b state p 0 :=
  ⟨fun _ => h, fun _ => by simpa [projection] using h⟩

/-- Outside PARKED and the cue states the limits bind nothing. -/
theorem inLimits_free {b : AxisBody} {state : AxisState} {p step : Int} (hparked : state ≠ .parked)
    (hcue : state.inCue = false) : InLimits b state p step :=
  ⟨fun h => by rcases h with h | h <;> simp_all, fun h => by simp_all⟩

/-- A ramp step moves towards the projected stopping position, which it keeps (R60). -/
theorem ramp_inLimits {b : AxisBody} (hS : 0 < b.sdec) {p v : Int} (hpos : b.lower ≤ p ∧ p ≤ b.upper)
    (hproj : b.lower ≤ projection b.sdec ⟨p, v⟩ ∧ projection b.sdec ⟨p, v⟩ ≤ b.upper) (state : AxisState) :
    InLimits b state (p + rampStep b.sdec v) (rampStep b.sdec v) := by
  rw [← projection_ramp hS p v] at hproj
  refine ⟨fun _ => ?_, fun _ => hproj⟩
  rcases lt_trichotomy (rampStep b.sdec v) 0 with h | h | h
  · have := dStop_nonneg hS (mag_nonneg (rampStep b.sdec v))
    simp only [projection, sgn_of_neg h] at hproj
    omega
  · simpa [h] using hpos
  · have := dStop_nonneg hS (mag_nonneg (rampStep b.sdec v))
    simp only [projection, sgn_of_pos h] at hproj
    omega

/-- A candidate whose projection lies within the limits lies there itself, when it starts within them (R55). -/
theorem step_inLimits {b : AxisBody} (hS : 0 < b.sdec) {p d : Int} (hpos : b.lower ≤ p ∧ p ≤ b.upper)
    (hproj : b.lower ≤ projection b.sdec ⟨p + d, d⟩ ∧ projection b.sdec ⟨p + d, d⟩ ≤ b.upper) (state : AxisState) :
    InLimits b state (p + d) d := by
  refine ⟨fun _ => ?_, fun _ => hproj⟩
  have := dStop_nonneg hS (mag_nonneg d)
  rcases lt_trichotomy d 0 with h | h | h
  · simp only [projection, sgn_of_neg h] at hproj
    omega
  · simpa [h] using hpos
  · simp only [projection, sgn_of_pos h] at hproj
    omega

/-! ## Contexts that are entered anew (R17, R20) -/

theorem sound_cleared : cleared.Sound none lagDepth :=
  ⟨by constructor <;> simp [cleared], by simp, by simp⟩

theorem sound_locating {b : AxisBody} (hb : b.InRange) : locating.Sound (some b) lagDepth := by
  have := hb.vmax
  refine ⟨by constructor <;> simp [locating, cleared], ?_, by simp [locating, cleared]⟩
  simp only [locating, cleared, mag_zero, Option.some.injEq]
  rintro _ rfl
  omega

/-! ## Changes that keep the state -/

theorem Sound.emptyRing (h : c.Sound body lagDepth) : c.emptyRing.Sound body lagDepth where
  lawful := { h.lawful with
    ring := by simp [AxisCtx.emptyRing], filtered := by simp [AxisCtx.emptyRing], cell := by simp [AxisCtx.emptyRing] }
  step := h.step
  limits := h.limits

theorem Sound.requested (h : c.Sound body lagDepth) (hstate : c.state ≠ .unconfigured) (req : Option Int) :
    (requested req c).Sound body lagDepth where
  lawful := { h.lawful with noRequest := fun hstate' => absurd hstate' hstate }
  step := h.step
  limits := h.limits

theorem Sound.withOutcome (h : c.Sound body lagDepth) (o : ScreenOutcome) : (c.withOutcome o).Sound body lagDepth where
  lawful := { h.lawful with clampRun := rfl }
  step := h.step
  limits := h.limits

theorem Sound.withCause (h : c.Sound body lagDepth) (hstate : c.state = .held) (cause : StopCause) :
    { c with cause := some cause }.Sound body lagDepth where
  lawful := { h.lawful with cause := by simp [hstate] }
  step := h.step
  limits := h.limits

theorem Sound.withOutstanding (h : c.Sound body lagDepth) (hstate : c.state ≠ .unconfigured) {l : List OutEntry} {n : Nat}
    (hl : l.length ≤ n) : { c with outstanding := l }.Sound body n where
  lawful := { h.lawful with outstanding := hl, emptyList := fun hstate' => absurd hstate' hstate }
  step := h.step
  limits := h.limits

theorem Sound.acknowledged (h : c.Sound body lagDepth) (hstate : c.state ≠ .unconfigured) (hlocated : c.state ≠ .locating)
    (r : FeedbackRecord) {newer : List OutEntry} (hnewer : newer.length ≤ lagDepth) :
    (c.acknowledged r newer).Sound body lagDepth where
  lawful := { h.lawful with
    outstanding := hnewer, acked := rfl, status := rfl
    emptyList := fun hstate' => absurd hstate' hstate
    notAcked := fun h' => by rcases h' with h' | h' <;> contradiction }
  step := h.step
  limits := h.limits

theorem Sound.takeLoad {b : AxisBody} {l : LoadSection} (h : c.Sound (some b) lagDepth) (hl : b.load = some l) (load : Int) :
    (c.takeLoad l load).Sound (some b) lagDepth where
  lawful := { h.lawful with
    ring := List.length_take_le 8 _
    filtered := by simp [AxisCtx.takeLoad, Config.ringRoom]
    cell := fun _ => ⟨b, l, rfl, hl⟩ }
  step := h.step
  limits := h.limits

theorem Sound.withReference {b : AxisBody} {l : LoadSection} (h : c.Sound (some b) lagDepth) (hl : b.load = some l)
    (hstate : c.state = .tracking) (ref : Option Int) : { c with reference := ref }.Sound (some b) lagDepth where
  lawful := { h.lawful with reference := fun _ => ⟨hstate, b, l, rfl, hl⟩ }
  step := h.step
  limits := h.limits

theorem Sound.withoutPos (h : c.Sound body lagDepth) (hstate : c.state = .faulted) :
    { c with pos := none }.Sound body lagDepth where
  lawful := { h.lawful with pos := by simp [hstate], noPos := fun _ => rfl }
  step := h.step
  limits := by simp

theorem Sound.countSettle (h : c.Sound body lagDepth) : { c with settle := c.settle - 1 }.Sound body lagDepth where
  lawful := { h.lawful with settle := (Nat.sub_le _ _).trans h.lawful.settle }
  step := h.step
  limits := h.limits

theorem Sound.untared (h : c.Sound body lagDepth) : c.untared.Sound body lagDepth where
  lawful := { h.emptyRing.lawful with reference := fun href => h.lawful.reference (by
    unfold AxisCtx.untared at href
    split at href
    · simp at href
    · exact href) }
  step := h.step
  limits := h.limits

theorem Sound.trimmed (h : c.Sound body lagDepth) (n : Nat) : (c.trimmed n).Sound body n where
  lawful := { h.lawful with
    outstanding := by simp only [AxisCtx.trimmed, List.length_drop]; omega
    emptyList := fun hstate => by simp [AxisCtx.trimmed, h.lawful.emptyList hstate] }
  step := h.step
  limits := h.limits

/-! ## Changes of the state (R20 to R30) -/

theorem Sound.stopped (h : c.Sound body lagDepth) (hstate : c.state = .tracking) (cause : StopCause) :
    (c.stopped cause).Sound body lagDepth := by
  obtain ⟨⟨⟩, hstep, hlimits⟩ := h
  refine ⟨by constructor <;> grind [AxisCtx.stopped], hstep, fun b p hb hp => ?_⟩
  simpa [InLimits, hstate, AxisCtx.stopped, AxisState.inCue] using hlimits b p hb hp

theorem Sound.toHeld (h : c.Sound body lagDepth) (hstate : c.state = .stopping) : c.toHeld.Sound body lagDepth := by
  obtain ⟨⟨⟩, hstep, hlimits⟩ := h
  refine ⟨by constructor <;> grind [AxisCtx.toHeld], fun b hb => ?_, fun b p hb hp => ?_⟩
  · exact (mag_nonneg c.step).trans (hstep b hb)
  · exact inLimits_rest ((hlimits b p hb hp).1 (.inr (by rw [hstate]; rfl)))

theorem Sound.toParked (h : c.Sound body lagDepth) (hstate : c.state = .held ∨ c.state = .stopping) {n : Nat} (hn : n ≤ 255) :
    (c.toParked n).Sound body lagDepth := by
  obtain ⟨⟨⟩, hstep, hlimits⟩ := h
  refine ⟨by constructor <;> grind [AxisCtx.toParked], fun b hb => ?_, fun b p hb hp => ?_⟩
  · exact (mag_nonneg c.step).trans (hstep b hb)
  · refine inLimits_rest ((hlimits b p hb hp).1 (.inr ?_))
    rcases hstate with hstate | hstate <;> rw [hstate] <;> rfl

theorem Sound.toLocated {b : AxisBody} (h : c.Sound (some b) lagDepth) (hstate : c.state = .locating) {p : Int}
    (hp : b.lower ≤ p ∧ p ≤ b.upper) : (c.toLocated p).Sound (some b) lagDepth := by
  obtain ⟨⟨⟩, hstep, -⟩ := h
  refine ⟨by constructor <;> grind [AxisCtx.toLocated], fun b hb => ?_, ?_⟩
  · exact (mag_nonneg c.step).trans (hstep b hb)
  · rintro _ _ ⟨⟩ ⟨⟩
    exact inLimits_rest hp

theorem Sound.toFaulted (h : c.Sound body lagDepth) (hstate : c.state ≠ .unconfigured) (f : AxisFault) :
    (c.toFaulted f).Sound body lagDepth := by
  obtain ⟨⟨⟩, hstep, -⟩ := h
  refine ⟨by constructor <;> grind [AxisCtx.toFaulted], fun b hb => ?_, fun b p _ _ => ?_⟩
  · exact (mag_nonneg c.step).trans (hstep b hb)
  · exact inLimits_free (by simp [AxisCtx.toFaulted]) rfl

theorem Sound.again (h : c.Sound body lagDepth) :
    { c with fault := c.fault.map FaultRecord.again }.Sound body lagDepth where
  lawful := { h.lawful with
    fault := by simpa using h.lawful.fault
    further := fun r hr => by
      obtain ⟨r', -, rfl⟩ := Option.map_eq_some_iff.mp hr
      exact Nat.min_le_right _ _ }
  step := h.step
  limits := h.limits

theorem Sound.takeFault (h : c.Sound body lagDepth) (f : AxisFault) : (c.takeFault f).Sound body lagDepth := by
  unfold AxisCtx.takeFault
  split
  next => exact h
  next => exact h.again
  next hstate _ => exact h.toFaulted hstate f

/-- A STOPPING axis that takes a ramp step which is not its last (R60). -/
theorem Sound.rampedOn {b : AxisBody} (h : c.Sound (some b) lagDepth) (hb : b.InRange) (hstate : c.state = .stopping) :
    { c with pos := c.pos.map (· + rampStep b.sdec c.step), step := rampStep b.sdec c.step }.Sound (some b) lagDepth := by
  obtain ⟨⟨⟩, hstep, hlimits⟩ := h
  refine ⟨by constructor <;> grind, ?_, ?_⟩
  · rintro _ ⟨⟩
    exact (mag_rampStep hb.sdec_pos c.step).trans (hstep b rfl)
  · rintro _ p ⟨⟩ hp
    obtain ⟨p0, hp0, rfl⟩ := Option.map_eq_some_iff.mp hp
    obtain ⟨hpos, hproj⟩ := hlimits b p0 rfl hp0
    have hcue : c.state.inCue = true := by rw [hstate]; rfl
    exact ramp_inLimits hb.sdec_pos (hpos (.inr hcue)) (hproj hcue) _

theorem Sound.ramped {b : AxisBody} (h : c.Sound (some b) lagDepth) (hb : b.InRange) (hstate : c.state = .stopping) {n : Nat}
    (hn : n ≤ 255) : (c.ramped b n).Sound (some b) lagDepth := by
  unfold AxisCtx.ramped
  refine Sound.withOutcome ?_ _
  split
  · split
    · exact h.toParked (.inr hstate) hn
    · exact h.toHeld hstate
  · exact h.rampedOn hb hstate

/-- A candidate taken by an axis that may follow it (R24, R55, R62). -/
theorem Sound.passed {b : AxisBody} (h : c.Sound (some b) lagDepth) (hb : b.InRange)
    (hstate : c.state = .held ∨ c.state = .tracking) (hcapture : c.capture = true) {prev cand : Motion} {req : Int}
    (hprev : c.pos = some prev.pos) (hmove : cand.pos = prev.pos + cand.step) (hcand : mag cand.step ≤ b.vmax)
    (hproj : b.lower ≤ projection b.sdec cand ∧ projection b.sdec cand ≤ b.upper) :
    (c.passed b prev cand req).Sound (some b) lagDepth := by
  obtain ⟨⟨⟩, hstep, hlimits⟩ := h
  refine Sound.withOutcome ⟨by constructor <;> grind, ?_, ?_⟩ _
  · rintro _ ⟨⟩
    exact hcand
  · rintro _ _ ⟨⟩ ⟨⟩
    obtain ⟨hpos, -⟩ := hlimits b prev.pos rfl hprev
    have hcue : c.state.inCue = true := by rcases hstate with hstate | hstate <;> rw [hstate] <;> rfl
    have hcand' : cand = ⟨prev.pos + cand.step, cand.step⟩ := by rw [← hmove]
    rw [hcand'] at hproj
    simp only [hmove]
    exact step_inLimits hb.sdec_pos (hpos (.inr hcue)) hproj _

/-! ## Handovers, halts and resets (R12, R14, R41, R104, R108) -/

/-- A PARKED axis taken into its cue (R104). -/
theorem Sound.taken (h : c.Sound body lagDepth) (hstate : c.state = .parked) :
    { c with state := .held, step := 0, cause := some .taken, capture := true }.Sound body lagDepth := by
  obtain ⟨⟨⟩, hstep, hlimits⟩ := h
  refine ⟨by constructor <;> grind, fun b hb => ?_, fun b p hb hp => ?_⟩
  · exact (mag_nonneg c.step).trans (hstep b hb)
  · exact inLimits_rest ((hlimits b p hb hp).1 (.inl hstate))

theorem Sound.withCapture (h : c.Sound body lagDepth) (hstate : c.state = .held ∨ c.state = .stopping) (capture : Bool) :
    { c with capture := capture }.Sound body lagDepth where
  lawful := { h.lawful with
    captureSet := by rcases hstate with hstate | hstate <;> simp [hstate]
    captureClear := by rcases hstate with hstate | hstate <;> simp [hstate] }
  step := h.step
  limits := h.limits

theorem Sound.withDest (h : c.Sound body lagDepth) (hstate : c.state = .stopping) (dest : StopDest) :
    { c with dest := some dest }.Sound body lagDepth where
  lawful := { h.lawful with dest := by simp [hstate] }
  step := h.step
  limits := h.limits

theorem Sound.handover (h : c.Sound body lagDepth) {n : Nat} (hn : n ≤ 255) (member : Bool) :
    (c.handover n member).Sound body lagDepth := by
  unfold AxisCtx.handover
  split
  next _ hstate => exact h.taken hstate
  next _ hstate => exact h.withCapture (.inl hstate) true
  next _ hstate => exact h.toParked (.inl hstate) hn
  next _ hstate => exact h.stopped hstate .released
  next _ hstate => exact (h.withDest hstate .held).withCapture (.inr hstate) true
  next _ hstate => exact h.withDest hstate .parked
  next => exact h

theorem Sound.halted (h : c.Sound body lagDepth) : c.halted.Sound body lagDepth := by
  unfold AxisCtx.halted
  split
  next hstate => exact h.stopped hstate .stopRequest
  next hstate => exact (h.withCause hstate .stopRequest).withCapture (.inl hstate) false
  next hstate => exact h.withCapture (.inr hstate) false
  next => exact h

theorem Sound.restarted (h : c.Sound body lagDepth) (hb : ∀ b, body = some b → b.InRange) :
    c.restarted.Sound body lagDepth := by
  unfold AxisCtx.restarted
  split
  next => exact h
  next hstate =>
    cases body with
    | none => exact absurd (h.lawful.configured.mpr rfl) hstate
    | some b => exact sound_locating (hb b rfl)

/-- A record rewritten under an axis outside its cue (R9 to R14). -/
theorem Sound.rewritten (h : c.Sound body lagDepth) {b : AxisBody} (hb : b.InRange) (hcue : c.state.inCue = false)
    (hparked : parkedOutside c b = none) : c.rewritten.Sound (some b) lagDepth := by
  unfold AxisCtx.rewritten
  split
  next => exact sound_locating hb
  next hstate =>
    have hvmax := hb.vmax
    obtain ⟨⟨⟩, hstep, hlimits⟩ := h
    have hrest : c.step = 0 := by grind [AxisState.inCue]
    refine ⟨by constructor <;> grind [AxisCtx.emptyRing, AxisState.inCue], ?_, ?_⟩
    · rintro _ ⟨⟩
      simp only [AxisCtx.emptyRing, hrest, mag_zero]
      omega
    · rintro _ p ⟨⟩ hp
      simp only [AxisCtx.emptyRing, hrest] at hp ⊢
      by_cases hp' : c.state = .parked
      · refine inLimits_rest ?_
        simpa [parkedOutside, hp', hp, AxisBody.inLimits, within_iff] using hparked
      · exact inLimits_free hp' hcue

/-- A record that changes in its tare offset only (R2). -/
theorem Sound.withOffset (h : c.Sound body lagDepth) (offset : Int) :
    c.Sound (body.map (AxisBody.withOffset offset)) lagDepth := by
  cases body with
  | none => exact h
  | some b =>
    obtain ⟨⟨⟩, hstep, hlimits⟩ := h
    refine ⟨by constructor <;> grind [AxisBody.withOffset], ?_, ?_⟩
    · rintro _ ⟨⟩
      exact hstep b rfl
    · rintro _ p ⟨⟩ hp
      exact hlimits b p rfl hp

end AxisCtx
end Sys2Proof.Machine
end

section
/-! SUPPORT. The laws of the axis contexts along every command: the field rules, the bound of the step and the soft limits (R4, R19
to R28, R55). -/

namespace Sys2Proof.Machine

/-- Every context keeps the laws of one context under its axis's record. -/
def ContextsSound (s : State) : Prop := ∀ x, (ctxOf s x).Sound (bodyOf s x) s.settings.lagDepth

theorem contextsSound_iff (s : State) : ContextsSound s ↔ ContextsLawful s ∧ StepsBounded s ∧ WithinLimits s := by
  constructor
  · exact fun h => ⟨fun x => (h x).lawful, fun x => (h x).step, fun x => (h x).limits⟩
  · exact fun ⟨hlawful, hstep, hlimits⟩ x => ⟨hlawful x, hstep x, hlimits x⟩

namespace ContextsSound
variable {s t : State}

/-! ## The primitive changes -/

theorem of_same (h : ContextsSound s) (hctx : t.ctx = s.ctx) (htab : t.axisTab = s.axisTab)
    (hlag : t.settings = s.settings) : ContextsSound t := fun x => by
  rw [ctxOf_congr hctx, bodyOf_congr htab, hlag]
  exact h x

theorem update (h : ContextsSound s) {x : Axis} {c : AxisCtx} (hc : c.Sound (bodyOf s x) s.settings.lagDepth)
    (hctx : t.ctx = tset s.ctx x c) (htab : t.axisTab = s.axisTab) (hlag : t.settings = s.settings) : ContextsSound t := by
  intro y
  rw [bodyOf_congr htab, hlag]
  have hread : ctxOf t y = if y = x then c else ctxOf s y := by rw [ctxOf, hctx, tget_tset]; rfl
  rw [hread]
  split
  next hy => exact hy ▸ hc
  next => exact h y

theorem setCtx (h : ContextsSound s) {x : Axis} {c : AxisCtx} (hc : c.Sound (bodyOf s x) s.settings.lagDepth) :
    ContextsSound (setCtx x c s) := h.update hc rfl rfl rfl

theorem mapCtx (h : ContextsSound s) {f : Axis → AxisCtx → AxisCtx}
    (hf : ∀ x c, c.Sound (bodyOf s x) s.settings.lagDepth → (f x c).Sound (bodyOf s x) s.settings.lagDepth) :
    ContextsSound (mapCtx f s) := fun x => by
  rw [ctxOf_mapCtx]
  exact hf x _ (h x)

theorem raise (h : ContextsSound s) (e : Event) : ContextsSound (raise e s) := h.of_same rfl rfl rfl

theorem raiseAll (h : ContextsSound s) (es : List Event) : ContextsSound (raiseAll es s) :=
  h.of_same (by simp) (by simp) (by simp)

theorem stopBetween (h : ContextsSound s) (x : Axis) (k : StopCause) : ContextsSound (stopBetween x k s) := by
  refine h.update (x := x) (c := (ctxOf s x).stoppedBetween k) ?_ (by simp) (by simp) (by simp)
  unfold AxisCtx.stoppedBetween
  split
  next hstate => exact (h x).stopped hstate k
  next => exact h x

theorem takeFault (h : ContextsSound s) (x : Axis) (f : AxisFault) : ContextsSound (takeFault x f s) :=
  h.update ((h x).takeFault f) (by simp) (by simp) (by simp)

theorem takeFaults (h : ContextsSound s) (x : Axis) (fs : List AxisFault) : ContextsSound (takeFaults x fs s) := by
  induction fs generalizing s with
  | nil => exact h
  | cons f fs ih => exact ih (h.takeFault x f)

/-! ## Screening (R47) -/

theorem checkCandidate_inLimits {x : Axis} {b : AxisBody} {prev cand : Motion} {req : Int}
    (h : checkCandidate s x b prev cand req = none) :
    b.lower ≤ projection b.sdec cand ∧ projection b.sdec cand ≤ b.upper := by
  unfold checkCandidate at h
  dsimp only at h
  repeat' split at h
  all_goals simp_all [AxisBody.inLimits, within_iff]

/-- The effective cap lies between 0 and vmax (R49). -/
theorem effectiveCap_range (htables : TablesLawful s) {x : Axis} {b : AxisBody} (hb : b.InRange) :
    0 ≤ effectiveCap s x b ∧ effectiveCap s x b ≤ b.vmax := by
  obtain ⟨hmem, hlow⟩ := effectiveCapIsLeastTerm s x b
  refine ⟨?_, hlow (.inl rfl)⟩
  rcases hmem with h | ⟨l, e, he, haction, -⟩ | ⟨h, -⟩
  · have := hb.vmax
    omega
  · exact ((htables.lineBody l e he).cap _ haction).1
  · rw [h]
    exact htables.settings.commissionCap.1

/-- A candidate's step is at most vmax when the step before it is (R4). -/
theorem candidate_step_le (htables : TablesLawful s) {x : Axis} {b : AxisBody} (hb : b.InRange) {prev : Motion}
    (hprev : mag prev.step ≤ b.vmax) (req : Int) : mag (candidate b (effectiveCap s x b) prev req).step ≤ b.vmax := by
  obtain ⟨hcap0, hcap⟩ := effectiveCap_range htables (x := x) hb
  rw [candidate_step]
  exact (mag_speedCap hb.sdec_pos hcap0).trans (max_le hcap hprev)

/-- What the screening of an axis leaves of its context is lawful, given that it was (R47). -/
theorem screenTracking_sound (htables : TablesLawful s) {x : Axis} {b : AxisBody} {p : Int} {c : AxisCtx}
    (hb : b.InRange) (hc : c.Sound (some b) s.settings.lagDepth) (req : Int) (hstate : c.state = .tracking) (hpos : c.pos = some p) :
    ∃ c', (screenTracking x b p req c s).ctx = tset s.ctx x c' ∧ c'.Sound (some b) s.settings.lagDepth := by
  unfold screenTracking
  dsimp only
  split
  next hcheck =>
    exact ⟨_, passCandidate_ctx .., hc.passed hb (.inr hstate) (hc.lawful.captureSet hstate) hpos (candidate_pos ..)
      (candidate_step_le htables hb (hc.step b rfl) req) (checkCandidate_inLimits hcheck)⟩
  next cause _ =>
    exact ⟨_, stopInScreening_ctx .., (hc.stopped hstate cause).ramped hb rfl htables.settings.brakeSettle.2⟩

theorem screenHeld_sound (htables : TablesLawful s) {x : Axis} {b : AxisBody} {p : Int} {c : AxisCtx}
    (hb : b.InRange) (hc : c.Sound (some b) s.settings.lagDepth) (req : Int) (hstate : c.state = .held) (hpos : c.pos = some p) :
    ∃ c', (screenHeld x b p req c s).ctx = tset s.ctx x c' ∧ c'.Sound (some b) s.settings.lagDepth := by
  unfold screenHeld
  split
  next hmay =>
    have hcapture : c.capture = true := by
      simp only [mayCapture, Bool.and_eq_true] at hmay
      exact hmay.1.1.2
    have hrest : mag (⟨p, 0⟩ : Motion).step ≤ b.vmax := by
      have := hb.vmax
      rw [mag_zero]
      omega
    dsimp only
    split
    next hcheck =>
      exact ⟨_, passCandidate_ctx .., hc.passed hb (.inl hstate) hcapture hpos (candidate_pos ..)
        (candidate_step_le htables hb hrest req) (checkCandidate_inLimits hcheck)⟩
    next cause _ => exact ⟨_, setCtx_ctx .., (hc.withCause hstate cause).withOutcome .refused⟩
  next => exact ⟨_, setCtx_ctx .., hc.withOutcome .idle⟩

theorem screenAxis_sound (htables : TablesLawful s) (h : ContextsSound s) {x : Axis} (hstate : (ctxOf s x).state ≠ .unconfigured)
    (req : Option Int) (synthesised : Bool) :
    ∃ c', (screenAxis x req synthesised s).ctx = tset s.ctx x c' ∧ c'.Sound (bodyOf s x) s.settings.lagDepth := by
  have hc := (h x).requested hstate req
  have hidle := hc.withOutcome .idle
  have hrange : ∀ {b}, bodyOf s x = some b → b.InRange := fun hb => htables.axisBody x _ hb
  unfold screenAxis
  dsimp only
  split
  next b hstopping hb =>
    rw [hb] at hc
    rw [hb]
    exact ⟨_, setCtx_ctx .., hc.ramped (hrange hb) hstopping htables.settings.brakeSettle.2⟩
  next b p hheld hb hpos =>
    split
    next r =>
      rw [hb] at hc
      rw [hb]
      exact screenHeld_sound htables (hrange hb) hc r hheld hpos
    next => exact ⟨_, setCtx_ctx .., hidle⟩
  next b p htracking hb hpos =>
    rw [hb] at hc
    rw [hb]
    split
    next r => exact screenTracking_sound htables (hrange hb) hc r htracking hpos
    next =>
      exact ⟨_, stopInScreening_ctx .., (hc.stopped htracking _).ramped (hrange hb) rfl htables.settings.brakeSettle.2⟩
  next hunconfigured => exact absurd hunconfigured hstate
  next => exact ⟨_, setCtx_ctx .., hidle⟩

theorem screenAndFix (h : ContextsSound s) (htables : TablesLawful s) {x : Axis} (hstate : (ctxOf s x).state ≠ .unconfigured)
    (req : Option Int) (e : Screening) : ContextsSound (screenAndFix x req e s) := by
  obtain ⟨c', hctx, hc'⟩ := screenAxis_sound htables h hstate req e.synthesised
  exact h.update hc' hctx (by simp) (by simp)

theorem takeConsoleRecord (h : ContextsSound s) (htables : TablesLawful s) (r : ConsoleRecord) (e : Screening) :
    ContextsSound (takeConsoleRecord r e s) := by
  unfold Machine.takeConsoleRecord
  split
  next => exact h.of_same rfl rfl rfl
  next x _ =>
    split
    next => exact h.of_same rfl rfl rfl
    next hstate =>
      split
      next => exact h.of_same rfl rfl rfl
      next => exact h.screenAndFix htables hstate _ e

/-! ## The append (R45, R115) -/

/-- Only a FAULTED axis may have been judged together with the fault (R31). -/
theorem foundBefore_state {j : Judge} {x : Axis} {found : AxisCtx} (h : foundBefore j x s = some found) :
    (ctxOf s x).state = .faulted := by
  by_contra hstate
  rw [foundBefore_not_faulted hstate] at h
  cases h

theorem overflow (h : ContextsSound s) (hlag : 1 ≤ s.settings.lagDepth) {x : Axis} (hstate : (ctxOf s x).state ≠ .unconfigured)
    (seq : Word16) (found : AxisCtx) : ContextsSound (overflow seq x found s).1 := by
  have hfault := h.takeFault x (overflowFault found)
  refine hfault.setCtx ((hfault x).withOutstanding ?_ (by simpa using hlag))
  rw [ctxOf_takeFault_same]
  exact (takeFault_faulted _ _ hstate).symm ▸ nofun

theorem appendRecord (h : ContextsSound s) (hlag : 1 ≤ s.settings.lagDepth) (seq : Word16) (r : DownRecord) :
    ContextsSound (appendRecord seq r s).1 := by
  unfold Machine.appendRecord
  dsimp only
  split
  next => exact h
  next hstate =>
    have hnoted : ContextsSound (noteJudged .engine r.axis s) := h.of_same rfl rfl rfl
    split
    next hroom =>
      refine hnoted.setCtx ((h r.axis).withOutstanding hstate ?_)
      simpa using hroom
    next =>
      split
      next =>
        refine hnoted.setCtx ((h r.axis).withOutstanding hstate ?_)
        simp only [List.length_drop]
        exact Nat.sub_le_iff_le_add.mpr (by simp only [noteJudged]; omega)
      next => exact hnoted.overflow hlag hstate seq _

theorem judgeAppend (h : ContextsSound s) (hlag : 1 ≤ s.settings.lagDepth) (seq : Word16) (r : DownRecord) :
    ContextsSound (judgeAppend seq r s).1 := by
  have hchosen : ContextsSound (chosen s) := h.of_same rfl rfl rfl
  unfold Machine.judgeAppend
  split
  next => exact h.appendRecord hlag seq r
  next found hfound =>
    split
    next =>
      have hstate : (ctxOf s r.axis).state ≠ .unconfigured := by rw [foundBefore_state hfound]; nofun
      exact ContextsSound.overflow (s := noteJudged .engine r.axis (chosen s)) (h.of_same rfl rfl rfl) hlag hstate seq found
    next => exact hchosen.appendRecord hlag seq r

/-! ## Feedback (R117 to R135) -/

/-- Faults taken one after another touch one context only (R31). -/
theorem ctxOf_takeFaults (x : Axis) (fs : List AxisFault) (y : Axis) : ctxOf (Machine.takeFaults x fs s) y =
    if y = x then fs.foldl (fun c f => c.takeFault f) (ctxOf s x) else ctxOf s y := by
  induction fs generalizing s with
  | nil => by_cases h : y = x <;> simp [Machine.takeFaults, h]
  | cons f fs ih =>
    have hcons : Machine.takeFaults x (f :: fs) s = Machine.takeFaults x fs (Machine.takeFault x f s) := rfl
    rw [hcons, ih]
    split <;> simp [ctxOf_takeFault, *]

/-- A fault and the acknowledgement of a record act on different fields of a context. -/
theorem acknowledged_takeFault (r : FeedbackRecord) (newer : List OutEntry) (f : AxisFault) (c : AxisCtx) :
    (c.acknowledged r newer).takeFault f = (c.takeFault f).acknowledged r newer := by
  cases hstate : c.state <;> simp [AxisCtx.takeFault, AxisCtx.acknowledged, AxisCtx.toFaulted, hstate]

theorem acknowledged_takeFaults (r : FeedbackRecord) (newer : List OutEntry) (fs : List AxisFault) (c : AxisCtx) :
    fs.foldl (fun c f => c.takeFault f) (c.acknowledged r newer) = (fs.foldl (fun c f => c.takeFault f) c).acknowledged r newer := by
  induction fs generalizing c with
  | nil => rfl
  | cons f fs ih => rw [List.foldl_cons, List.foldl_cons, acknowledged_takeFault, ih]

theorem sound_takeFaults {body : Option AxisBody} {lagDepth : Nat} {c : AxisCtx} (h : c.Sound body lagDepth)
    (fs : List AxisFault) : (fs.foldl (fun c f => c.takeFault f) c).Sound body lagDepth := by
  induction fs generalizing c with
  | nil => exact h
  | cons f fs ih => exact ih (h.takeFault f)

/-- Steps 1 to 4 of a matched record: the acknowledged context, which for a LOCATING axis breaks the rule on acked-once until the
axis has learned its position or is FAULTED, is lawful once they are done (R19, R117 to R123). -/
theorem matchedSteps (h : ContextsSound s) {x : Axis} {b : AxisBody} (hb : bodyOf s x = some b)
    (hstate : (ctxOf s x).state ≠ .unconfigured) {r : FeedbackRecord} {m : OutEntry} {newer : List OutEntry}
    (hnewer : newer.length ≤ s.settings.lagDepth) {found : AxisCtx}
    (hfound : (ctxOf s x).state = .locating → found.state = .locating) :
    ContextsSound (learnPosition x r.actual.toInt (Machine.takeFaults x (stepFaults r m b found)
      (Machine.setCtx x ((ctxOf s x).acknowledged r newer) (noteJudged .monitor x s)))) := by
  have hsound := h x
  rw [hb] at hsound
  have hfaulted := sound_takeFaults hsound (stepFaults r m b found)
  have hread : ∀ y, ctxOf (Machine.takeFaults x (stepFaults r m b found)
      (Machine.setCtx x ((ctxOf s x).acknowledged r newer) (noteJudged .monitor x s))) y = if y = x then
        ((stepFaults r m b found).foldl (fun c f => c.takeFault f) (ctxOf s x)).acknowledged r newer else ctxOf s y := by
    intro y
    rw [ctxOf_takeFaults, ctxOf_setCtx_same, acknowledged_takeFaults]
    split
    next => rfl
    next hy => exact ctxOf_setCtx_other hy _ _
  generalize hu : Machine.takeFaults x (stepFaults r m b found)
    (Machine.setCtx x ((ctxOf s x).acknowledged r newer) (noteJudged .monitor x s)) = u at hread ⊢
  have htab : u.axisTab = s.axisTab := by simp [← hu]
  have hlag : u.settings = s.settings := by simp [← hu]
  have hconfigured : ∀ fs : List AxisFault, (fs.foldl (fun c f => c.takeFault f) (ctxOf s x)).state ≠ .unconfigured := by
    intro fs hu'
    have := (sound_takeFaults hsound fs).lawful.configured.mp hu'
    simp at this
  have hother : ∀ {v : State} {c : AxisCtx}, c.Sound (some b) s.settings.lagDepth → v.ctx = tset u.ctx x c →
      v.axisTab = u.axisTab → v.settings = u.settings → ContextsSound v := by
    intro v c hc hctx hvtab hvlag y
    rw [bodyOf_congr (hvtab.trans htab), hvlag, hlag]
    have hv : ctxOf v y = if y = x then c else ctxOf u y := by rw [ctxOf, hctx, tget_tset]; rfl
    rw [hv]
    split
    next hy => rw [hy, hb]; exact hc
    next hy => rw [hread, if_neg hy]; exact h y
  have hux := hread x
  rw [if_pos rfl] at hux
  unfold learnPosition
  split
  next hlocating =>
    rw [hux] at hlocating ⊢
    have hnone : stepFaults r m b found = [] := by
      by_contra hne
      have := takeFaults_state x (stepFaults r m b found) s hstate
      rw [ctxOf_takeFaults, if_pos rfl, if_neg hne] at this
      exact absurd (hlocating.symm.trans this) nofun
    rw [hnone] at hlocating ⊢
    have hlimits : b.lower ≤ r.actual.toInt ∧ r.actual.toInt ≤ b.upper := by
      have hposition : positionFaults b m found.state r.actual.toInt = [] := by
        simp only [stepFaults, List.append_eq_nil_iff] at hnone
        exact hnone.2
      rw [hfound hlocating] at hposition
      simpa [positionFaults, AxisBody.inLimits, within_iff] using hposition
    refine ContextsSound.raise ?_ _
    have hlocated := hsound.toLocated hlocating hlimits
    exact hother (c := ((ctxOf s x).toLocated r.actual.toInt).acknowledged r newer)
      (hlocated.acknowledged nofun nofun r hnewer) rfl rfl rfl
  next hlocated =>
    rw [hux] at hlocated
    refine hother (hfaulted.acknowledged (hconfigured _) hlocated r hnewer) ?_ rfl rfl
    rw [← hux]
    exact (tset_tget u.ctx x).symm

theorem slackSnag (h : ContextsSound s) {x : Axis} {b : AxisBody} {l : LoadSection} (hb : bodyOf s x = some b)
    (hl : b.load = some l) (step : Int) : ContextsSound (slackSnag x l step s) := by
  unfold Machine.slackSnag
  dsimp only
  split
  next f hstate _ =>
    have hsound := h x
    rw [hb] at hsound
    have href : ContextsSound (Machine.setCtx x { ctxOf s x with reference := some ((ctxOf s x).reference.getD f) } s) :=
      h.setCtx (by rw [hb]; exact hsound.withReference hl hstate _)
    split
    next => exact h.stopBetween x .slack
    next =>
      split
      next => exact href.stopBetween x .snag
      next => exact href
  next => exact h

theorem completeTare (h : ContextsSound s) (x : Axis) (sum : Int) : ContextsSound (completeTare x sum s) := by
  unfold Machine.completeTare
  refine ContextsSound.raise ?_ _
  intro y
  simp only [ctxOf_setCtx, bodyOf, setCtx_axisTab, tget_tset, setCtx_settings]
  split
  next hy =>
    subst hy
    exact ((h y).withOffset _).emptyRing
  next => exact h y

theorem tareSample (h : ContextsSound s) (x : Axis) (raw : Int) : ContextsSound (tareSample x raw s) := by
  unfold Machine.tareSample
  split
  next => exact h
  next =>
    split
    next =>
      split
      next => exact h.of_same rfl rfl rfl
      next => exact h.completeTare x _
    next => exact h

theorem checkLoad (h : ContextsSound s) {x : Axis} {b : AxisBody} {l : LoadSection} (hb : bodyOf s x = some b)
    (hl : b.load = some l) (raw : Int) (found : AxisCtx) : ContextsSound (checkLoad x l raw found s) := by
  have hsound := h x
  rw [hb] at hsound
  have hloaded : ContextsSound (Machine.takeFaults x (overloadFaults l raw)
      (Machine.setCtx x ((ctxOf s x).takeLoad l (loadOf l raw)) s)) :=
    ContextsSound.takeFaults (h.setCtx (by rw [hb]; exact hsound.takeLoad hl _)) x _
  have hbody : bodyOf (Machine.takeFaults x (overloadFaults l raw)
      (Machine.setCtx x ((ctxOf s x).takeLoad l (loadOf l raw)) s)) x = some b := by
    rw [← hb]
    exact bodyOf_congr (by simp) x
  unfold Machine.checkLoad
  dsimp only
  split
  next => exact hloaded.slackSnag hbody hl _
  next => exact hloaded.tareSample x raw
  next =>
    split
    next hpos => exact hloaded.setCtx ((hloaded x).withoutPos hpos.2)
    next => exact hloaded
  next => exact hloaded

theorem countSettle (h : ContextsSound s) (x : Axis) : ContextsSound (countSettle x s) := h.setCtx (h x).countSettle

/-- The five steps of the checks on a matched record (R119). -/
theorem checkRecord (h : ContextsSound s) {x : Axis} {b : AxisBody} (hb : bodyOf s x = some b)
    (hstate : (ctxOf s x).state ≠ .unconfigured) {r : FeedbackRecord} {m : OutEntry} {newer : List OutEntry}
    (hnewer : newer.length ≤ s.settings.lagDepth) {found : AxisCtx}
    (hfound : (ctxOf s x).state = .locating → found.state = .locating) :
    ContextsSound (checkRecord x r m b found
      (Machine.setCtx x ((ctxOf s x).acknowledged r newer) (noteJudged .monitor x s))) := by
  have hsteps := h.matchedSteps hb hstate (r := r) (m := m) hnewer hfound
  unfold Machine.checkRecord
  dsimp only
  split
  next l hl =>
    refine hsteps.checkLoad ?_ hl _ _
    rw [← hb]
    exact bodyOf_congr (by simp) x
  next => exact hsteps

theorem matchEntry_length {ack : Word16} {l newer : List OutEntry} {m : OutEntry} (h : matchEntry ack l = some (m, newer)) :
    newer.length ≤ l.length := by
  induction l with
  | nil => cases h
  | cons o l ih =>
    unfold matchEntry at h
    split at h
    · cases h
      exact Nat.le_succ _
    · exact (ih h).trans (Nat.le_succ _)

theorem matchRecord (h : ContextsSound s) {x : Axis} (hstate : (ctxOf s x).state ≠ .unconfigured) (r : FeedbackRecord) :
    ContextsSound (matchRecord x r s) := by
  unfold Machine.matchRecord
  dsimp only
  split
  next => exact h.raise _
  next m newer hmatch =>
    have hnewer := (matchEntry_length hmatch).trans (h x).lawful.outstanding
    split
    next hfaulted =>
      have hnoted : ContextsSound (noteJudged .monitor x s) := h.of_same rfl rfl rfl
      exact hnoted.setCtx ((h x).acknowledged hstate (by rw [hfaulted]; nofun) r hnewer)
    next =>
      split
      next b hb => exact (h.checkRecord hb hstate hnewer id).countSettle x
      next hb => exact absurd ((h x).lawful.configured.mpr hb) hstate

theorem judgeRecord (h : ContextsSound s) {x : Axis} (hstate : (ctxOf s x).state ≠ .unconfigured) (r : FeedbackRecord) :
    ContextsSound (judgeRecord x r s) := by
  have hchosen : ContextsSound (chosen s) := h.of_same rfl rfl rfl
  have hmatch : ContextsSound (Machine.matchRecord x r (chosen s)) := hchosen.matchRecord hstate r
  unfold Machine.judgeRecord
  split
  next => exact h.matchRecord hstate r
  next found hfound =>
    dsimp only
    split
    next =>
      unfold faultsFoundIn
      split
      next b m newer hb hentry =>
        split
        next =>
          refine ContextsSound.countSettle (hchosen.checkRecord hb hstate (hchosen x).lawful.outstanding fun hlocating => ?_) x
          exact absurd (foundBefore_state hfound) (by rw [show ctxOf s x = ctxOf (chosen s) x from rfl, hlocating]; nofun)
        next => exact hmatch
      next => exact hmatch
    next => exact hmatch

theorem takeFeedbackRecord (h : ContextsSound s) (r : FeedbackRecord) : ContextsSound (takeFeedbackRecord r s) := by
  unfold Machine.takeFeedbackRecord
  split
  next => exact h.raise _
  next x _ =>
    split
    next => exact h.raise _
    next hstate =>
      split
      next => exact h.raise _
      next => exact ContextsSound.judgeRecord (s := { s with fb := { s.fb with taken := x :: s.fb.taken } }) (h.of_same rfl rfl rfl) hstate r

end ContextsSound
end Sys2Proof.Machine
end

section
/-! SUPPORT. The laws of the contexts along every command and every step, and the two obligations that they settle (R4, R19, R28,
R55, R114). -/

namespace Sys2Proof.Machine

/-- The laws of the tables speak of the tables and the settings record only. -/
theorem TablesLawful.of_same {s t : State} (h : TablesLawful s) (haxes : t.axisTab = s.axisTab) (hpairs : t.pairTab = s.pairTab)
    (hlines : t.lineTab = s.lineTab) (hsettings : t.settings = s.settings) : TablesLawful t := by
  constructor
  · exact haxes ▸ h.axisBody
  · exact haxes ▸ h.axisLock
  · exact hpairs ▸ h.pairBody
  · exact hpairs ▸ h.pairLock
  · exact hpairs ▸ h.pairOnce
  · exact hlines ▸ h.lineBody
  · exact hlines ▸ h.lineLock
  · exact hsettings ▸ h.settings

namespace ContextsSound
variable {s : State}

/-- After power-on reset every context is cleared and every axis entry absent (R2, R41). -/
theorem settleAllDue_resetOf (s : State) : ContextsSound (settleAllDue (resetOf s)) := by
  intro x
  simp only [ctxOf, bodyOf, settleAllDue_same, resetOf, State.reset, tget_replicate]
  exact AxisCtx.sound_cleared

theorem takeNextFeedback (h : ContextsSound s) (r : FeedbackRecord) (rest : List FeedbackRecord)
    (more : List (List FeedbackRecord)) : ContextsSound (takeNextFeedback r rest more s) := by
  have htaken : ContextsSound (Machine.takeFeedbackRecord r { s with fb := { s.fb with frames := rest :: more } }) :=
    ContextsSound.takeFeedbackRecord (s := { s with fb := { s.fb with frames := rest :: more } }) (h.of_same rfl rfl rfl) r
  exact htaken.of_same rfl rfl rfl

theorem placeRecord (h : ContextsSound s) (hlag : 1 ≤ s.settings.lagDepth) (e : Screening) (r : DownRecord)
    (rest : List DownRecord) : ContextsSound (placeRecord e r rest s) :=
  (h.judgeAppend hlag e.seq r).of_same rfl rfl rfl

/-- The contexts stay lawful through every step of the part's blocks and ports. -/
theorem blockStep (h : ContextsSound s) (htables : TablesLawful s) {c : Instr} {t : State} (hstep : BlockStep s c t) :
    ContextsSound t := by
  cases hstep with
  | nothing => exact h
  | reset => exact settleAllDue_resetOf s
  | record e r rest => exact h.takeConsoleRecord htables r _
  | screened e x _ _ _ hscreenable =>
    simp only [screenable, bne, Bool.and_eq_true, Bool.not_eq_true', beq_eq_false_iff_ne] at hscreenable
    exact h.screenAndFix htables hscreenable.1 none _
  | placed e r rest => exact h.placeRecord (Nat.le_of_succ_le htables.settings.lagDepth.1) e r rest
  | feedback r rest more => exact h.takeNextFeedback r rest more
  | passed | downSent | upSent => exact h.of_same rfl rfl rfl
  | discarded | routed | routedAt | deadline | emitted | rawSame | rawChanged | settled | reportDue | reportBuilt
  | reportSent => exact h.of_same (by simp) (by simp) (by simp)

/-! ## The accepted requests -/

theorem restartOwners (h : ContextsSound s) (htables : TablesLawful s) : ContextsSound (restartOwners s) := by
  refine (h.mapCtx (f := fun _ c => c.restarted) fun x c hc => hc.restarted (htables.axisBody x)).of_same ?_ ?_ ?_ <;>
    simp [Machine.restartOwners]

theorem writeAxis (h : ContextsSound s) {x : Axis} {b : AxisBody} (hb : b.InRange)
    (hcue : (ctxOf s x).state.inCue = false) (hlimits : parkedOutside (ctxOf s x) b = none) :
    ContextsSound (writeAxis x b s) := by
  intro y
  simp only [Machine.writeAxis, ctxOf_setCtx, bodyOf, setCtx_axisTab, setAxisEntry_axisTab, tget_tset]
  split
  next => exact (h x).rewritten hb hcue hlimits
  next => exact h y

theorem eraseAxis (h : ContextsSound s) (x : Axis) : ContextsSound (eraseAxis x s) := by
  intro y
  change (ctxOf (Machine.setCtx x AxisCtx.cleared s) y).Sound (tget (tset s.axisTab x _) y).body s.settings.lagDepth
  rw [ctxOf_setCtx, tget_tset]
  split
  next => exact AxisCtx.sound_cleared
  next => exact h y

theorem untareAxis (h : ContextsSound s) (x : Axis) : ContextsSound (untareAxis x s) := by
  intro y
  change (ctxOf (Machine.setCtx x (ctxOf s x).untared s) y).Sound (tget (tset s.axisTab x _) y).body s.settings.lagDepth
  rw [ctxOf_setCtx, tget_tset]
  split
  next => exact ((h x).untared).withOffset 0
  next => exact h y

theorem writeSettings (h : ContextsSound s) (r : Settings) : ContextsSound (writeSettings r s) := by
  intro x
  rw [Machine.writeSettings, ctxOf_mapCtx]
  exact (h x).trimmed r.lagDepth

theorem lockAxis (h : ContextsSound s) (x : Axis) (flag : Bool) :
    ContextsSound (setAxisEntry x { tget s.axisTab x with locked := flag } s) := by
  intro y
  simp only [bodyOf, setAxisEntry_axisTab, tget_tset]
  split
  next hy => exact hy ▸ h y
  next => exact h y

/-- The contexts stay lawful through every accepted request. -/
theorem accepts (h : ContextsSound s) (htables : TablesLawful s) {c : Instr} {t : State} (haccept : Accepts s c t) :
    ContextsSound t := by
  cases haccept with
  | read => exact h
  | halt axes =>
    refine ContextsSound.raiseAll (h.mapCtx fun x c hc => ?_) _
    split
    next => exact hc.halted
    next => exact hc
  | clearFault x hstate =>
    cases hb : bodyOf s x with
    | none =>
      have := (h x).lawful.configured.mpr hb
      rw [hstate] at this
      nomatch this
    | some b => exact h.setCtx (hb ▸ AxisCtx.sound_locating (htables.axisBody x b hb))
  | restart => exact (h.restartOwners htables).of_same (by simp) (by simp) (by simp)
  | putAxis x b hchecks hcue _ hlimits => exact h.writeAxis ((axisInRange_iff b).mp hchecks) hcue hlimits
  | eraseAxis x => exact h.eraseAxis x
  | putSettings r => exact h.writeSettings r
  | lockAxis _ flag x => exact h.lockAxis x flag
  | untare x => exact h.untareAxis x
  | take g =>
    have hover : ContextsSound (Machine.mapCtx (fun a c => c.handover s.settings.brakeSettle (g.axes.contains a))
        { s with active := some g, staged := none }) :=
      ContextsSound.mapCtx (h.of_same rfl rfl rfl) fun x c hc => hc.handover htables.settings.brakeSettle.2 _
    exact hover.of_same (by simp) (by simp) (by simp)
  | setMask | tare | stage | drop | lockPair | lockLine | putPair | erasePair => exact h.of_same rfl rfl rfl
  | mode | putLine | eraseLine => exact h.of_same (by simp) (by simp) (by simp)

theorem exec (h : ContextsSound s) (htables : TablesLawful s) {c : Instr} {t : State} (hexec : exec c s = .next t) :
    ContextsSound t :=
  exec_ind hexec h (fun _ => h.blockStep htables) (fun _ _ => h.of_same rfl rfl rfl) (fun _ _ _ _ hu => hu.of_same rfl rfl rfl)
    (fun ev _ hu => hu.raise ev)
    (fun rest more _ => ContextsSound.accepts (s := withoutFront rest more s) (h.of_same rfl rfl rfl)
      (htables.of_same rfl rfl rfl rfl))

theorem step (h : ContextsSound s) (htables : TablesLawful s) {t : State} (hstep : step s = .next t) : ContextsSound t :=
  step_ind hstep (fun _ => h.of_same rfl rfl rfl) (fun _ => h.of_same rfl rfl rfl) fun _ q =>
    ContextsSound.exec (s := { s with pending := q }) (h.of_same rfl rfl rfl) (htables.of_same rfl rfl rfl rfl)

end ContextsSound

theorem Lawful.contextsSound {s : State} (h : Lawful s) : ContextsSound s :=
  (contextsSound_iff s).mpr ⟨h.contexts, h.steps, h.limits⟩

/-- Settles O58, by the laws of one context under every operation. -/
theorem contextsStayLawful : Obligations.ContextsStayLawful := by
  intro s t h hstep
  exact ((contextsSound_iff t).mp (h.contextsSound.step h.tables hstep)).1

/-- Settles O59, by the same invariant: a ramp step keeps the projected stopping position, and a candidate is checked against the
limits before it is taken. -/
theorem positionsStayWithinLimits : Obligations.PositionsStayWithinLimits := by
  intro s t h hstep
  obtain ⟨-, hsteps, hlimits⟩ := (contextsSound_iff t).mp (h.contextsSound.step h.tables hstep)
  exact ⟨hlimits, hsteps⟩

end Sys2Proof.Machine
end

section
/-! SUPPORT. What one command does to the tables: the pair entries that a screening warns, the offset that a completed tare stores,
and the entries that an accepted request writes (R2, R65, R67, R80, R89, R135, R168, R171). -/

namespace Sys2Proof.Machine

/-! ## The warning flags that a screening moves (R80) -/

/-- The pair tables that the screening of the axis `x` can leave: as it was, or with the warnings of a passed candidate. -/
inductive WarnedBy (s : State) (x : Axis) : Vector PairEntry 512 → Prop
  | same : WarnedBy s x s.pairTab
  | warned (b : AxisBody) (prev cand : Motion) : WarnedBy s x (tmap (fun _ e => warnEntry s x b prev cand e) s.pairTab)

section
variable {s : State} {x : Axis}

theorem warnEntry_body (b : AxisBody) (prev cand : Motion) (e : PairEntry) : (warnEntry s x b prev cand e).body = e.body := by
  unfold warnEntry
  split <;> rfl

theorem warnEntry_locked (b : AxisBody) (prev cand : Motion) (e : PairEntry) :
    (warnEntry s x b prev cand e).locked = e.locked := by
  unfold warnEntry
  split <;> rfl

/-- Only a present entry warns (R80). -/
theorem warnEntry_absent (b : AxisBody) (prev cand : Motion) {e : PairEntry} (h : e.body = none) :
    warnEntry s x b prev cand e = e := by
  rw [warnEntry, h]

theorem warnPairs_pairTab (b : AxisBody) (prev cand : Motion) :
    (warnPairs x b prev cand s).pairTab = tmap (fun _ e => warnEntry s x b prev cand e) s.pairTab := by
  simp [warnPairs]

theorem passCandidate_pairTab (b : AxisBody) (prev cand : Motion) (req : Int) (c : AxisCtx) :
    (passCandidate x b prev cand req c s).pairTab = tmap (fun _ e => warnEntry s x b prev cand e) s.pairTab := by
  unfold passCandidate
  dsimp only
  split <;> simp [warnPairs_pairTab]

theorem screenTracking_warnedBy (b : AxisBody) (p req : Int) (c : AxisCtx) :
    WarnedBy s x (screenTracking x b p req c s).pairTab := by
  unfold screenTracking
  dsimp only
  split
  next => exact passCandidate_pairTab (s := s) .. ▸ .warned ..
  next => exact .same

theorem screenHeld_warnedBy (b : AxisBody) (p req : Int) (c : AxisCtx) : WarnedBy s x (screenHeld x b p req c s).pairTab := by
  unfold screenHeld
  split
  next =>
    dsimp only
    split
    next => exact passCandidate_pairTab (s := s) .. ▸ .warned ..
    next => exact .same
  next => exact .same

theorem screenAxis_warnedBy (req : Option Int) (synthesised : Bool) :
    WarnedBy s x (screenAxis x req synthesised s).pairTab := by
  unfold screenAxis
  dsimp only
  split
  next => exact .same
  next =>
    split
    next => exact screenHeld_warnedBy ..
    next => exact .same
  next =>
    split
    next => exact screenTracking_warnedBy ..
    next => exact .same
  next => exact .same
  next => exact .same

theorem takeConsoleRecord_warnedBy (r : ConsoleRecord) (e : Screening) :
    ∃ x, WarnedBy s x (takeConsoleRecord r e s).pairTab := by
  unfold takeConsoleRecord
  split
  next => exact ⟨0, .same⟩
  next x _ =>
    refine ⟨x, ?_⟩
    split
    next => exact .same
    next =>
      split
      next => exact .same
      next => exact screenAxis_warnedBy ..

variable {v : Vector PairEntry 512}

theorem WarnedBy.body (h : WarnedBy s x v) (i : PairIndex) : (tget v i).body = (tget s.pairTab i).body := by
  cases h with
  | same => rfl
  | warned => rw [tget_tmap, warnEntry_body]

theorem WarnedBy.locked (h : WarnedBy s x v) (i : PairIndex) : (tget v i).locked = (tget s.pairTab i).locked := by
  cases h with
  | same => rfl
  | warned => rw [tget_tmap, warnEntry_locked]

theorem WarnedBy.absent (h : WarnedBy s x v) {i : PairIndex} (hbody : (tget s.pairTab i).body = none) :
    tget v i = tget s.pairTab i := by
  cases h with
  | same => rfl
  | warned => rw [tget_tmap, warnEntry_absent _ _ _ hbody]

end

/-! ## The offset that a feedback record may store (R135) -/

/-- The axis tables that a feedback record with the raw load `raw` can leave: as it was, or with the offset of the tare in flight,
which that load completes. -/
inductive OffsetStored (s : State) (raw : Int) : Vector AxisEntry 128 → Prop
  | same : OffsetStored s raw s.axisTab
  | stored (t : Tare) (htare : s.tare = some t) (hcount : 15 ≤ t.count) : OffsetStored s raw (tset s.axisTab t.axis
      { tget s.axisTab t.axis with
        body := (tget s.axisTab t.axis).body.map (AxisBody.withOffset ((t.sum + raw) / 16)) })

/-- `u` follows `s` as far as the tare engine and the axis table go: the table is the same, and a tare in flight has been in flight
before. -/
structure TareKept (s u : State) : Prop where
  axisTab : u.axisTab = s.axisTab
  tare : ∀ t, u.tare = some t → s.tare = some t

section
variable {s u : State} {x : Axis}

theorem TareKept.of_same (haxes : u.axisTab = s.axisTab) (htare : u.tare = s.tare) : TareKept s u :=
  ⟨haxes, fun _ h => htare ▸ h⟩

theorem TareKept.takeFaults (h : TareKept s u) (fs : List AxisFault) : TareKept s (takeFaults x fs u) :=
  ⟨by simpa using h.axisTab, fun t ht => h.tare t (takeFaults_tare x fs u t ht)⟩

theorem TareKept.learnPosition (h : TareKept s u) (p : Int) : TareKept s (learnPosition x p u) :=
  ⟨by simpa using h.axisTab, by simpa using h.tare⟩

theorem TareKept.stored (h : TareKept s u) (raw : Int) : OffsetStored s raw u.axisTab := h.axisTab ▸ .same

theorem TareKept.tareSample (h : TareKept s u) (raw : Int) : OffsetStored s raw (tareSample x raw u).axisTab := by
  unfold Machine.tareSample
  split
  next => exact h.stored raw
  next t htare =>
    split
    next hx =>
      split
      next => exact h.stored raw
      next hcount =>
        rw [← hx.1]
        change OffsetStored s raw (tset u.axisTab t.axis { tget u.axisTab t.axis with body := _ })
        rw [h.axisTab]
        exact .stored t (h.tare t htare) (by simp only [Config.tareSamples] at hcount; omega)
    next => exact h.stored raw

theorem TareKept.checkLoad (h : TareKept s u) (l : LoadSection) (raw : Int) (found : AxisCtx) :
    OffsetStored s raw (checkLoad x l raw found u).axisTab := by
  have hloaded : TareKept s (Machine.takeFaults x (overloadFaults l raw)
      (setCtx x ((ctxOf u x).takeLoad l (loadOf l raw)) u)) :=
    TareKept.takeFaults (u := setCtx x _ u) ⟨h.axisTab, h.tare⟩ _
  unfold Machine.checkLoad
  dsimp only
  split
  next => simpa using hloaded.stored raw
  next => exact hloaded.tareSample raw
  next => split <;> exact hloaded.stored raw
  next => exact hloaded.stored raw

theorem TareKept.checkRecord (h : TareKept s u) (r : FeedbackRecord) (m : OutEntry) (b : AxisBody) (found : AxisCtx) :
    OffsetStored s r.rawLoad.toInt (checkRecord x r m b found u).axisTab := by
  have hlearned := (h.takeFaults (x := x) (stepFaults r m b found)).learnPosition (x := x) r.actual.toInt
  unfold Machine.checkRecord
  dsimp only
  split
  next l _ => exact hlearned.checkLoad l _ found
  next => exact hlearned.stored _

theorem TareKept.matchRecord (h : TareKept s u) (r : FeedbackRecord) :
    OffsetStored s r.rawLoad.toInt (matchRecord x r u).axisTab := by
  unfold Machine.matchRecord
  dsimp only
  split
  next => exact h.stored _
  next m newer _ =>
    split
    next => exact h.stored _
    next =>
      split
      next b _ => exact TareKept.checkRecord (u := setCtx x _ (noteJudged .monitor x u)) ⟨h.axisTab, h.tare⟩ r m b _
      next => exact h.stored _

theorem TareKept.judgeRecord (h : TareKept s u) (r : FeedbackRecord) :
    OffsetStored s r.rawLoad.toInt (judgeRecord x r u).axisTab := by
  have hchosen : TareKept s (chosen u) := ⟨h.axisTab, h.tare⟩
  unfold Machine.judgeRecord
  split
  next => exact h.matchRecord r
  next found _ =>
    dsimp only
    split
    next =>
      unfold faultsFoundIn
      split
      next b m _ _ _ =>
        split
        next => exact TareKept.checkRecord (u := setCtx x _ (noteJudged .monitor x (chosen u))) ⟨h.axisTab, h.tare⟩ r m b found
        next => exact hchosen.matchRecord r
      next => exact hchosen.matchRecord r
    next => exact hchosen.matchRecord r

theorem TareKept.takeFeedbackRecord (h : TareKept s u) (r : FeedbackRecord) :
    OffsetStored s r.rawLoad.toInt (takeFeedbackRecord r u).axisTab := by
  unfold Machine.takeFeedbackRecord
  split
  next => exact h.stored _
  next x _ =>
    split
    next => exact h.stored _
    next =>
      split
      next => exact h.stored _
      next => exact TareKept.judgeRecord (u := { u with fb := { u.fb with taken := x :: u.fb.taken } }) ⟨h.axisTab, h.tare⟩ r

end

theorem takeNextFeedback_offsetStored (s : State) (r : FeedbackRecord) (rest : List FeedbackRecord)
    (more : List (List FeedbackRecord)) : OffsetStored s r.rawLoad.toInt (takeNextFeedback r rest more s).axisTab :=
  TareKept.takeFeedbackRecord (s := s) (u := { s with fb := { s.fb with frames := rest :: more } }) (TareKept.of_same rfl rfl) r

/-- The offset of a completed tare fits its field: it is the average of sixteen raw loads, rounded down (R135). -/
theorem TareLawful.offset_range {s : State} (h : TareLawful s) {t : Tare} (htare : s.tare = some t) (hcount : 15 ≤ t.count)
    (raw : Word16) : -32768 ≤ (t.sum + raw.toInt) / 16 ∧ (t.sum + raw.toInt) / 16 ≤ 32767 := by
  obtain ⟨-, -, -, hmost, -, hlow, hhigh⟩ := h t htare
  have hlowest := BitVec.le_two_mul_toInt (x := raw)
  have hlargest := BitVec.two_mul_toInt_lt (x := raw)
  have hfull : t.count = 15 := by omega
  rw [hfull] at hlow hhigh
  norm_num at hlow hhigh hlowest hlargest
  omega

/-! ## The laws of the tables under one write (R2, R65, R89) -/

theorem AxisBody.InRange.withOffset {b : AxisBody} (h : b.InRange) {offset : Int} (hoffset : -32768 ≤ offset ∧ offset ≤ 32767) :
    (b.withOffset offset).InRange :=
  { h with
    load := fun l hl => by
      obtain ⟨l', hl', rfl⟩ := Option.map_eq_some_iff.mp hl
      exact { h.load l' hl' with tareOffset := hoffset } }

/-- A body that PUT_PAIR does not refuse as a duplicate names a pair that no other entry holds (R67). -/
theorem duplicateOf_eq_none {s : State} {i : PairIndex} {b : PairBody} : duplicateOf s i b = none ↔
    ∀ j, j ≠ i → ∀ c, (tget s.pairTab j).body = some c → ¬ (c.upper = b.upper ∧ c.lower = b.lower) := by
  simp only [duplicateOf, Option.map_eq_none_iff, List.find?_eq_none, Prod.forall, mem_tzip, PairBody.sameAxes]
  constructor
  · intro h j hj c hc hsame
    exact h j _ rfl (by simp [hj, hc, hsame])
  · rintro h j _ rfl
    simp only [Bool.and_eq_true, bne_iff_ne, Option.any_eq_true, beq_iff_eq]
    rintro ⟨hj, c, hc, hsame⟩
    exact h j hj c hc hsame

namespace TablesLawful
variable {s t : State}

theorem setAxis (h : TablesLawful s) {x : Axis} {v : AxisEntry} (hbody : ∀ b, v.body = some b → b.InRange)
    (hlock : v.body = none → v.locked = false) (haxes : t.axisTab = tset s.axisTab x v) (hpairs : t.pairTab = s.pairTab)
    (hlines : t.lineTab = s.lineTab) (hsettings : t.settings = s.settings) : TablesLawful t := by
  have hkept : TablesLawful { t with axisTab := s.axisTab } := h.of_same rfl hpairs hlines hsettings
  refine { hkept with axisBody := fun y => ?_, axisLock := fun y => ?_ } <;> rw [haxes, tget_tset] <;> split
  · exact hbody
  · exact h.axisBody y
  · exact hlock
  · exact h.axisLock y

theorem setLine (h : TablesLawful s) {l : Line} {v : InterlockEntry} (hbody : ∀ b, v.body = some b → b.InRange)
    (hlock : v.body = none → v.locked = false) (haxes : t.axisTab = s.axisTab) (hpairs : t.pairTab = s.pairTab)
    (hlines : t.lineTab = tset s.lineTab l v) (hsettings : t.settings = s.settings) : TablesLawful t := by
  have hkept : TablesLawful { t with lineTab := s.lineTab } := h.of_same haxes hpairs rfl hsettings
  refine { hkept with lineBody := fun k => ?_, lineLock := fun k => ?_ } <;> rw [hlines, tget_tset] <;> split
  · exact hbody
  · exact h.lineBody k
  · exact hlock
  · exact h.lineLock k

/-- A write of the pair table that keeps every other entry, and names no pair that another entry names. -/
theorem setPair (h : TablesLawful s) {i : PairIndex} {v : PairEntry} (hbody : ∀ b, v.body = some b → b.InRange)
    (hlock : v.body = none → v.locked = false ∧ v.warning = false)
    (honce : ∀ j b c, j ≠ i → v.body = some b → (tget s.pairTab j).body = some c → ¬ (c.upper = b.upper ∧ c.lower = b.lower))
    (haxes : t.axisTab = s.axisTab) (hpairs : t.pairTab = tset s.pairTab i v) (hlines : t.lineTab = s.lineTab)
    (hsettings : t.settings = s.settings) : TablesLawful t := by
  have hkept : TablesLawful { t with pairTab := s.pairTab } := h.of_same haxes rfl hlines hsettings
  have hread (j : PairIndex) : tget t.pairTab j = if j = i then v else tget s.pairTab j := by rw [hpairs, tget_tset]
  refine { hkept with pairBody := fun j => ?_, pairLock := fun j => ?_, pairOnce := fun j k b c => ?_ }
  · rw [hread]
    split
    next => exact hbody
    next => exact h.pairBody j
  · rw [hread]
    split
    next => exact hlock
    next => exact h.pairLock j
  · rw [hread, hread]
    intro hj hk hupper hlower
    split at hj <;> split at hk
    next hji hki => rw [hji, hki]
    next hji hki => exact absurd ⟨hupper.symm, hlower.symm⟩ (honce k b c hki hj hk)
    next hji hki => exact absurd ⟨hupper, hlower⟩ (honce j c b hji hk hj)
    next => exact h.pairOnce j k b c hj hk hupper hlower

/-- Only the warnings of present entries have moved. -/
theorem warned (h : TablesLawful s) (hbody : ∀ i, (tget t.pairTab i).body = (tget s.pairTab i).body)
    (hlocked : ∀ i, (tget t.pairTab i).locked = (tget s.pairTab i).locked)
    (habsent : ∀ i, (tget s.pairTab i).body = none → (tget t.pairTab i).warning = false)
    (haxes : t.axisTab = s.axisTab) (hlines : t.lineTab = s.lineTab) (hsettings : t.settings = s.settings) :
    TablesLawful t := by
  have hkept : TablesLawful { t with pairTab := s.pairTab } := h.of_same haxes rfl hlines hsettings
  refine { hkept with pairBody := fun i => ?_, pairLock := fun i => ?_, pairOnce := fun i j => ?_ }
  · rw [hbody]
    exact h.pairBody i
  · rw [hbody, hlocked]
    exact fun hnone => ⟨(h.pairLock i hnone).1, habsent i hnone⟩
  · rw [hbody, hbody]
    exact h.pairOnce i j

theorem warnedBy (h : TablesLawful s) {x : Axis} (hwarned : WarnedBy s x t.pairTab) (haxes : t.axisTab = s.axisTab)
    (hlines : t.lineTab = s.lineTab) (hsettings : t.settings = s.settings) : TablesLawful t :=
  h.warned hwarned.body hwarned.locked (fun i hi => by rw [hwarned.absent hi]; exact (h.pairLock i hi).2) haxes hlines hsettings

theorem withOffset (h : TablesLawful s) {x : Axis} {offset : Int} (hoffset : -32768 ≤ offset ∧ offset ≤ 32767)
    (haxes : t.axisTab = tset s.axisTab x
      { tget s.axisTab x with body := (tget s.axisTab x).body.map (AxisBody.withOffset offset) })
    (hpairs : t.pairTab = s.pairTab) (hlines : t.lineTab = s.lineTab) (hsettings : t.settings = s.settings) :
    TablesLawful t := by
  refine h.setAxis (v := { tget s.axisTab x with body := (tget s.axisTab x).body.map (AxisBody.withOffset offset) })
     (fun b hb => ?_) (fun hnone => h.axisLock x (Option.map_eq_none_iff.mp hnone)) haxes hpairs hlines hsettings
  obtain ⟨b', hb', rfl⟩ := Option.map_eq_some_iff.mp hb
  exact (h.axisBody x b' hb').withOffset hoffset

theorem offsetStored (h : TablesLawful s) (htare : TareLawful s) {raw : Word16} (hstored : OffsetStored s raw.toInt t.axisTab)
    (hpairs : t.pairTab = s.pairTab) (hlines : t.lineTab = s.lineTab) (hsettings : t.settings = s.settings) :
    TablesLawful t := by
  generalize hv : t.axisTab = v at hstored
  cases hstored with
  | same => exact h.of_same hv hpairs hlines hsettings
  | stored a ha hcount => exact h.withOffset (htare.offset_range ha hcount raw) hv hpairs hlines hsettings

/-! ## Every command -/

theorem initial_inRange : Settings.initial.InRange := by
  constructor <;> decide

theorem reset_lawful : TablesLawful State.reset := by
  constructor
  case settings => exact initial_inRange
  all_goals simp [State.reset]

theorem blockStep (h : TablesLawful s) (htare : TareLawful s) {c : Instr} (hstep : BlockStep s c t) : TablesLawful t := by
  cases hstep with
  | nothing => exact h
  | reset => exact reset_lawful.of_same (by simp [resetOf]) (by simp [resetOf]) (by simp [resetOf]) (by simp [resetOf])
  | record e r rest =>
    obtain ⟨x, hwarned⟩ := takeConsoleRecord_warnedBy (s := s) r { e with todo := rest }
    exact h.warnedBy hwarned (by simp) (by simp) (by simp)
  | screened e x => exact h.warnedBy (screenAxis_warnedBy none _) (by simp) (by simp) (by simp)
  | feedback r rest more =>
    exact h.offsetStored htare (takeNextFeedback_offsetStored s r rest more) (by simp [takeNextFeedback])
      (by simp [takeNextFeedback]) (by simp [takeNextFeedback])
  | placed => exact h.of_same (by simp [placeRecord]) (by simp [placeRecord]) (by simp [placeRecord]) (by simp [placeRecord])
  | passed | downSent | upSent => exact h.of_same rfl rfl rfl rfl
  | discarded | routed | routedAt | deadline | emitted | rawSame | rawChanged | settled | reportDue | reportBuilt
  | reportSent => exact h.of_same (by simp) (by simp) (by simp) (by simp)

theorem accepts (h : TablesLawful s) {c : Instr} (haccept : Accepts s c t) : TablesLawful t := by
  cases haccept with
  | read => exact h
  | restart =>
    refine h.warned (fun i => ?_) (fun i => ?_) (fun i _ => ?_) (by simp [restartOwners]) (by simp [restartOwners])
      (by simp [restartOwners]) <;> simp [restartOwners]
  | putPair i f b hchecks hbody honce =>
    exact h.setPair (i := i) (v := { tget s.pairTab i with body := some b, warning := false })
      (fun c hc => Option.some.inj hc ▸ (pairInRange_iff hbody).mp hchecks) (by simp)
      (fun j b' c hj hb' => Option.some.inj hb' ▸ duplicateOf_eq_none.mp honce j hj c) rfl rfl rfl rfl
  | putLine l f b hchecks hbody =>
    exact h.setLine (l := l) (v := { tget s.lineTab l with body := some b })
      (fun c hc => Option.some.inj hc ▸ (interlockInRange_iff hbody).mp hchecks) (by simp) (by simp) (by simp)
      (by simp [writeLine]) (by simp)
  | putAxis x b hchecks =>
    exact h.setAxis (x := x) (v := { tget s.axisTab x with body := some b })
      (fun c hc => Option.some.inj hc ▸ (axisInRange_iff b).mp hchecks) (by simp) rfl (by simp) (by simp) (by simp)
  | eraseAxis x => exact h.setAxis (x := x) (v := ⟨none, false⟩) (by simp) (by simp) rfl (by simp) (by simp) (by simp)
  | erasePair i => exact h.setPair (i := i) (v := ⟨none, false, false⟩) (by simp) (by simp) (by simp) rfl rfl rfl rfl
  | eraseLine l =>
    exact h.setLine (l := l) (v := ⟨none, false⟩) (by simp) (by simp) (by simp) (by simp) (by simp [eraseLine]) (by simp)
  | putSettings r hchecks =>
    have hkept : TablesLawful { writeSettings r s with settings := s.settings } := h.of_same rfl rfl rfl rfl
    exact { hkept with settings := (settingsInRange_iff r).mp hchecks }
  | lockAxis _ flag x hbody =>
    exact h.setAxis (x := x) (v := { tget s.axisTab x with locked := flag }) (h.axisBody x) (fun hnone => absurd hnone hbody) rfl rfl rfl rfl
  | lockPair _ flag i hbody => 
    exact h.setPair (i := i) (v := { tget s.pairTab i with locked := flag }) (h.pairBody i) (fun hnone => absurd hnone hbody)
      (fun j b c hj hb hc heq => hj (h.pairOnce j i c b hc hb heq.1 heq.2)) rfl rfl rfl rfl
  | lockLine _ flag l hbody =>
    exact h.setLine (l := l) (v := { tget s.lineTab l with locked := flag }) (h.lineBody l) (fun hnone => absurd hnone hbody) rfl rfl rfl rfl
  | untare x => exact h.withOffset (offset := 0) (by decide) rfl rfl rfl rfl
  | mode | setMask | halt | clearFault | tare | stage | take | drop => exact h.of_same (by simp) (by simp) (by simp) (by simp)

theorem exec (h : TablesLawful s) (htare : TareLawful s) {c : Instr} (hexec : exec c s = .next t) : TablesLawful t :=
  exec_ind hexec h (fun _ => h.blockStep htare) (fun _ _ => h.of_same rfl rfl rfl rfl)
    (fun _ _ _ _ hu => hu.of_same rfl rfl rfl rfl) (fun _ _ hu => hu.of_same rfl rfl rfl rfl)
    (fun rest more _ => TablesLawful.accepts (s := withoutFront rest more s) (h.of_same rfl rfl rfl rfl))

theorem step (h : TablesLawful s) (htare : TareLawful s) (hstep : step s = .next t) : TablesLawful t :=
  step_ind hstep (fun _ => h.of_same rfl rfl rfl rfl) (fun _ => h.of_same rfl rfl rfl rfl) fun _ q =>
    TablesLawful.exec (s := { s with pending := q }) (h.of_same rfl rfl rfl rfl) htare

end TablesLawful

/-- Settles O57: the requests write bodies that have passed their checks, a completed tare an average of raw loads, and a
screening moves the warnings of present entries only. -/
theorem tablesStayLawful : Obligations.TablesStayLawful :=
  fun _ _ h htare hstep => h.step htare hstep

/-! ## Locked entries in SHOW (R168) -/

/-- Every locked entry of `s` stands in `t` with its content and its lock. -/
structure LockedKept (s t : State) : Prop where
  axes : ∀ x, (tget s.axisTab x).locked = true → tget t.axisTab x = tget s.axisTab x
  pairs : ∀ i, (tget s.pairTab i).locked = true →
    (tget t.pairTab i).body = (tget s.pairTab i).body ∧ (tget t.pairTab i).locked = true
  lines : ∀ l, (tget s.lineTab l).locked = true → tget t.lineTab l = tget s.lineTab l

namespace LockedKept
variable {s t : State}

theorem of_same (haxes : t.axisTab = s.axisTab) (hpairs : t.pairTab = s.pairTab) (hlines : t.lineTab = s.lineTab) :
    LockedKept s t :=
  ⟨fun x _ => by rw [haxes], fun i hi => by rw [hpairs]; exact ⟨rfl, hi⟩, fun l _ => by rw [hlines]⟩

theorem warnedBy {x : Axis} (haxes : t.axisTab = s.axisTab) (hpairs : WarnedBy s x t.pairTab) (hlines : t.lineTab = s.lineTab) :
    LockedKept s t :=
  ⟨fun x _ => by rw [haxes], fun i hi => ⟨hpairs.body i, (hpairs.locked i).trans hi⟩, fun l _ => by rw [hlines]⟩

theorem setAxis {x : Axis} {v : AxisEntry} (hopen : (tget s.axisTab x).locked = false)
    (haxes : t.axisTab = tset s.axisTab x v) (hpairs : t.pairTab = s.pairTab) (hlines : t.lineTab = s.lineTab) :
    LockedKept s t := by
  refine ⟨fun y hy => ?_, fun i hi => by rw [hpairs]; exact ⟨rfl, hi⟩, fun l _ => by rw [hlines]⟩
  rw [haxes, tget_tset_other]
  rintro rfl
  exact Bool.false_ne_true (hopen.symm.trans hy)

theorem setPair {i : PairIndex} {v : PairEntry} (hopen : (tget s.pairTab i).locked = false)
    (haxes : t.axisTab = s.axisTab) (hpairs : t.pairTab = tset s.pairTab i v) (hlines : t.lineTab = s.lineTab) :
    LockedKept s t := by
  refine ⟨fun x _ => by rw [haxes], fun j hj => ?_, fun l _ => by rw [hlines]⟩
  rw [hpairs, tget_tset_other]
  · exact ⟨rfl, hj⟩
  · rintro rfl
    exact Bool.false_ne_true (hopen.symm.trans hj)

theorem setLine {l : Line} {v : InterlockEntry} (hopen : (tget s.lineTab l).locked = false)
    (haxes : t.axisTab = s.axisTab) (hpairs : t.pairTab = s.pairTab) (hlines : t.lineTab = tset s.lineTab l v) :
    LockedKept s t := by
  refine ⟨fun x _ => by rw [haxes], fun i hi => by rw [hpairs]; exact ⟨rfl, hi⟩, fun k hk => ?_⟩
  rw [hlines, tget_tset_other]
  rintro rfl
  exact Bool.false_ne_true (hopen.symm.trans hk)

/-- An entry that is not protected in SHOW is not locked (R168). -/
theorem unlocked {locked : Bool} (hshow : s.req.mode = .inShow) (hopen : ¬ Protected s locked) : locked = false :=
  Bool.eq_false_iff.mpr fun hlocked => hopen ⟨hshow, hlocked⟩

/-- No tare is in flight in SHOW, so no record stores an offset (R133, R165). -/
theorem no_tare (htare : TareLawful s) (hshow : s.req.mode = .inShow) : s.tare = none := by
  by_contra hsome
  obtain ⟨a, ha⟩ := Option.ne_none_iff_exists'.mp hsome
  have hmode := (htare a ha).1
  rw [hshow] at hmode
  nomatch hmode

theorem blockStep (htare : TareLawful s) (hshow : s.req.mode = .inShow) {c : Instr} (hc : c ≠ .powerOnReset)
    (hstep : BlockStep s c t) : LockedKept s t := by
  cases hstep with
  | reset => exact absurd rfl hc
  | record e r rest =>
    obtain ⟨x, hwarned⟩ := takeConsoleRecord_warnedBy (s := s) r { e with todo := rest }
    exact warnedBy (by simp) hwarned (by simp)
  | screened e x => exact warnedBy (by simp) (screenAxis_warnedBy none _) (by simp)
  | feedback r rest more =>
    refine of_same ?_ (by simp [takeNextFeedback]) (by simp [takeNextFeedback])
    have hstored := takeNextFeedback_offsetStored s r rest more
    generalize (takeNextFeedback r rest more s).axisTab = v at hstored
    cases hstored with
    | same => rfl
    | stored a ha => rw [no_tare htare hshow] at ha; nomatch ha
  | placed => exact of_same (by simp [placeRecord]) (by simp [placeRecord]) (by simp [placeRecord])
  | nothing | passed | downSent | upSent => exact of_same rfl rfl rfl
  | discarded | routed | routedAt | deadline | emitted | rawSame | rawChanged | settled | reportDue | reportBuilt
  | reportSent => exact of_same (by simp) (by simp) (by simp)

theorem accepts (hshow : s.req.mode = .inShow) {c : Instr} (haccept : Accepts s c t) : LockedKept s t := by
  have hstructural (hmode : s.req.mode = .commission) : LockedKept s t := by rw [hshow] at hmode; nomatch hmode
  cases haccept with
  | read => exact of_same rfl rfl rfl
  | restart =>
    refine ⟨fun x _ => ?_, fun i hi => ?_, fun l _ => ?_⟩ <;> simp [restartOwners]
    exact hi
  | putPair _ _ _ _ _ _ hopen | erasePair _ hopen => exact setPair (unlocked hshow hopen) rfl rfl rfl
  | putLine _ _ _ _ _ hopen => exact setLine (unlocked hshow hopen) (by simp) (by simp) (by simp [writeLine]; rfl)
  | eraseLine _ hopen => exact setLine (unlocked hshow hopen) (by simp) (by simp) (by simp [eraseLine]; rfl)
  | putAxis _ _ _ _ _ _ hopen | eraseAxis _ _ _ hopen => exact setAxis (unlocked hshow hopen) rfl (by simp) (by simp)
  | lockAxis _ _ _ _ hmode | lockPair _ _ _ _ hmode | lockLine _ _ _ _ hmode | untare _ _ _ hmode
  | tare _ _ _ _ hmode => exact hstructural hmode
  | mode | setMask | halt | clearFault | stage | take | drop | putSettings => exact of_same (by simp) (by simp) (by simp)

end LockedKept

/-- Settles O60: a locked entry is written by no request in SHOW, and no tare is in flight to store an offset. -/
theorem showKeepsLockedEntries : Obligations.ShowKeepsLockedEntries := by
  intro c s t hc htare hshow hexec
  obtain ⟨haxes, hpairs, hlines⟩ : LockedKept s t :=
    exec_ind hexec (.of_same rfl rfl rfl) (fun _ => LockedKept.blockStep htare hshow hc) (fun _ _ => .of_same rfl rfl rfl)
      (fun _ _ _ _ hu => ⟨hu.axes, hu.pairs, hu.lines⟩) (fun _ _ hu => ⟨hu.axes, hu.pairs, hu.lines⟩)
      (fun rest more _ hu =>
        have hkept := LockedKept.accepts (s := withoutFront rest more s) hshow hu
        ⟨hkept.axes, hkept.pairs, hkept.lines⟩)
  exact ⟨haxes, hpairs, hlines⟩

end Sys2Proof.Machine
end

section
/-! SUPPORT. The primitive changes by which an append and a feedback record act on contexts and on the tare engine, and that they act
by nothing else (R31, R45, R117 to R136). -/

namespace Sys2Proof.Machine

/-- `Touch raw s t`: one primitive change of the two blocks that take faults, `raw` the raw load of the record in hand. -/
inductive Touch (raw : Int) (s : State) : State → Prop
  | quiet (j : Option Judgement) (n : Nat) (fb : FeedbackMonitor) (ev : EventUnit) :
      Touch raw s { s with judged := j, choices := n, fb := fb, ev := ev }
  | context (x : Axis) (c : AxisCtx) (hstate : c.state = (ctxOf s x).state) : Touch raw s (setCtx x c s)
  | fault (x : Axis) (f : AxisFault) : Touch raw s (takeFault x f s)
  | learn (x : Axis) (p : Int) (hstate : (ctxOf s x).state = .locating) : Touch raw s (setCtx x ((ctxOf s x).toLocated p) s)
  | stop (x : Axis) (k : StopCause) : Touch raw s (stopBetween x k s)
  | sample (t : Tare) (htare : s.tare = some t) (hcount : t.count + 1 < 16) :
      Touch raw s { s with tare := some { t with stage := 1, count := t.count + 1, sum := t.sum + raw } }
  | complete (x : Axis) (sum : Int) : Touch raw s (completeTare x sum s)

/-- Primitive changes one after another. -/
abbrev Touched (raw : Int) : State → State → Prop := Relation.ReflTransGen (Touch raw)

namespace Touched
variable {raw : Int} {s u : State} {x : Axis}

theorem quiet (h : Touched raw s u) (j : Option Judgement) (n : Nat) (fb : FeedbackMonitor) (ev : EventUnit) :
    Touched raw s { u with judged := j, choices := n, fb := fb, ev := ev } := h.tail (.quiet j n fb ev)

theorem raise (h : Touched raw s u) (e : Event) : Touched raw s (raise e u) := h.quiet u.judged u.choices u.fb (u.ev.raise e)

theorem noteJudged (h : Touched raw s u) (j : Judge) (x : Axis) : Touched raw s (noteJudged j x u) :=
  h.quiet _ u.choices u.fb u.ev

theorem chosen (h : Touched raw s u) : Touched raw s (chosen u) := h.quiet none (u.choices + 1) u.fb u.ev

theorem setCtx (h : Touched raw s u) {c : AxisCtx} (hstate : c.state = (ctxOf u x).state) : Touched raw s (setCtx x c u) :=
  h.tail (.context x c hstate)

theorem takeFault (h : Touched raw s u) (f : AxisFault) : Touched raw s (takeFault x f u) := h.tail (.fault x f)

theorem takeFaults (h : Touched raw s u) (fs : List AxisFault) : Touched raw s (takeFaults x fs u) := by
  induction fs generalizing u with
  | nil => exact h
  | cons f fs ih => exact ih (h.takeFault f)

theorem learnPosition (h : Touched raw s u) (p : Int) : Touched raw s (learnPosition x p u) := by
  unfold Machine.learnPosition
  split
  next hstate => exact Touched.raise (h.tail (.learn x p hstate)) _
  next => exact h

/-! ## The append (R45, R115) -/

theorem overflow (h : Touched raw s u) (seq : Word16) (found : AxisCtx) : Touched raw s (overflow seq x found u).1 :=
  (h.takeFault (overflowFault found)).setCtx rfl

theorem appendRecord (h : Touched raw s u) (seq : Word16) (r : DownRecord) : Touched raw s (appendRecord seq r u).1 := by
  have hnoted := h.noteJudged .engine r.axis
  unfold Machine.appendRecord
  dsimp only
  split
  next => exact h
  next =>
    split
    next => exact hnoted.setCtx rfl
    next =>
      split
      next => exact hnoted.setCtx rfl
      next => exact hnoted.overflow seq _

theorem judgeAppend (h : Touched raw s u) (seq : Word16) (r : DownRecord) : Touched raw s (judgeAppend seq r u).1 := by
  unfold Machine.judgeAppend
  split
  next => exact h.appendRecord seq r
  next found _ =>
    split
    next => exact (h.chosen.noteJudged .engine r.axis).overflow seq found
    next => exact h.chosen.appendRecord seq r

/-! ## The feedback record (R117 to R136) -/

theorem slackSnag (h : Touched raw s u) (l : LoadSection) (step : Int) : Touched raw s (slackSnag x l step u) := by
  unfold Machine.slackSnag
  dsimp only
  split
  next =>
    split
    next => exact h.tail (.stop x .slack)
    next =>
      have href (ref : Option Int) : Touched raw s (Machine.setCtx x { ctxOf u x with reference := ref } u) := h.setCtx rfl
      split
      next => exact (href _).tail (.stop x .snag)
      next => exact href _
  next => exact h

theorem tareSample (h : Touched raw s u) : Touched raw s (tareSample x raw u) := by
  unfold Machine.tareSample
  split
  next => exact h
  next t htare =>
    split
    next =>
      split
      next hcount => exact h.tail (.sample t htare hcount)
      next => exact h.tail (.complete x _)
    next => exact h

theorem checkLoad (h : Touched raw s u) (l : LoadSection) (found : AxisCtx) : Touched raw s (checkLoad x l raw found u) := by
  have hload : Touched raw s (Machine.setCtx x ((ctxOf u x).takeLoad l (loadOf l raw)) u) := h.setCtx rfl
  have hfaults := hload.takeFaults (x := x) (overloadFaults l raw)
  unfold Machine.checkLoad
  dsimp only
  split
  next => exact hfaults.slackSnag l found.step
  next => exact hfaults.tareSample
  next =>
    split
    next => exact hfaults.setCtx rfl
    next => exact hfaults
  next => exact hfaults

theorem checkRecord {r : FeedbackRecord} (h : Touched r.rawLoad.toInt s u) (m : OutEntry) (b : AxisBody) (found : AxisCtx) :
    Touched r.rawLoad.toInt s (checkRecord x r m b found u) := by
  have hlearned := (h.takeFaults (x := x) (stepFaults r m b found)).learnPosition (x := x) r.actual.toInt
  unfold Machine.checkRecord
  dsimp only
  split
  next l _ => exact hlearned.checkLoad l found
  next => exact hlearned

theorem matchRecord {r : FeedbackRecord} (h : Touched r.rawLoad.toInt s u) :
    Touched r.rawLoad.toInt s (matchRecord x r u) := by
  unfold Machine.matchRecord
  dsimp only
  split
  next => exact h.raise _
  next m newer _ =>
    have hacknowledged : Touched r.rawLoad.toInt s
        (Machine.setCtx x ((ctxOf u x).acknowledged r newer) (Machine.noteJudged .monitor x u)) :=
      (h.noteJudged .monitor x).setCtx rfl
    split
    next => exact hacknowledged
    next =>
      split
      next b _ => exact (hacknowledged.checkRecord m b _).setCtx rfl
      next => exact hacknowledged

theorem judgeRecord {r : FeedbackRecord} (h : Touched r.rawLoad.toInt s u) :
    Touched r.rawLoad.toInt s (judgeRecord x r u) := by
  unfold Machine.judgeRecord
  split
  next => exact h.matchRecord
  next found _ =>
    dsimp only
    split
    next =>
      unfold faultsFoundIn
      split
      next b m _ _ _ =>
        split
        next =>
          have hacknowledged : Touched r.rawLoad.toInt s (Machine.setCtx x
              ((ctxOf u x).acknowledged r (ctxOf u x).outstanding) (Machine.noteJudged .monitor x (Machine.chosen u))) :=
            (h.chosen.noteJudged .monitor x).setCtx rfl
          exact (hacknowledged.checkRecord m b found).setCtx rfl
        next => exact h.chosen.matchRecord
      next => exact h.chosen.matchRecord
    next => exact h.chosen.matchRecord

theorem takeFeedbackRecord {r : FeedbackRecord} (h : Touched r.rawLoad.toInt s u) :
    Touched r.rawLoad.toInt s (takeFeedbackRecord r u) := by
  unfold Machine.takeFeedbackRecord
  split
  next => exact h.raise _
  next x _ =>
    split
    next => exact h.raise _
    next =>
      split
      next => exact h.raise _
      next => exact (h.quiet u.judged u.choices { u.fb with taken := x :: u.fb.taken } u.ev).judgeRecord

/-- A feedback record acts by the primitive changes only. -/
theorem takeNextFeedback (r : FeedbackRecord) (rest : List FeedbackRecord) (more : List (List FeedbackRecord)) :
    Touched r.rawLoad.toInt s (takeNextFeedback r rest more s) := by
  have hfirst : Touched r.rawLoad.toInt s { s with fb := { s.fb with frames := rest :: more } } :=
    Relation.ReflTransGen.single (.quiet s.judged s.choices { s.fb with frames := rest :: more } s.ev)
  exact (hfirst.takeFeedbackRecord).quiet _ _ _ _

end Touched
end Sys2Proof.Machine
end

section
/-! SUPPORT. The status outputs, the event unit and the lines along every command (R39, R40, R84, R174, R177, R178). -/

namespace Sys2Proof.Machine

/-! ## The status outputs (R39, R40) -/

theorem pinsFollow_iff (s : State) : PinsFollow s ↔ OutputsFollow s := by
  have hfault := someAxis_iff (· == .faulted) s
  have hmoving := someAxis_iff AxisState.moving s
  simp only [beq_iff_eq, AxisState.moving, Bool.or_eq_true] at hfault hmoving
  unfold PinsFollow OutputsFollow
  rw [← hfault, ← hmoving]
  exact and_congr Bool.eq_iff_iff Bool.eq_iff_iff

theorem mapCtx_anyFault (f : Axis → AxisCtx → AxisCtx) (s : State) :
    (mapCtx f s).anyFault = someAxis (· == .faulted) (tmap f s.ctx) := rfl

theorem mapCtx_inMotion (f : Axis → AxisCtx → AxisCtx) (s : State) :
    (mapCtx f s).inMotion = someAxis AxisState.moving (tmap f s.ctx) := rfl

namespace PinsFollow
variable {s t : State} {x : Axis}

theorem reset_outputs : OutputsFollow State.reset := by
  have hread (x : Axis) : ctxOf State.reset x = AxisCtx.cleared := tget_replicate _ _
  refine ⟨iff_of_false Bool.false_ne_true ?_, iff_of_false Bool.false_ne_true ?_⟩
  · simp [hread, AxisCtx.cleared]
  · simp [hread, AxisCtx.cleared]

theorem raise (h : PinsFollow s) (e : Event) : PinsFollow (raise e s) := h

theorem passCandidate (b : AxisBody) (prev cand : Motion) (req : Int) (c : AxisCtx) (s : State) :
    PinsFollow (passCandidate x b prev cand req c s) := by
  unfold Machine.passCandidate
  dsimp only
  split
  next => exact (pinsFollow_setCtx ..).raise _
  next => exact pinsFollow_setCtx ..

theorem screenHeld (b : AxisBody) (p req : Int) (c : AxisCtx) (s : State) : PinsFollow (screenHeld x b p req c s) := by
  unfold Machine.screenHeld
  split
  next =>
    dsimp only
    split
    next => exact passCandidate ..
    next => exact pinsFollow_setCtx ..
  next => exact pinsFollow_setCtx ..

theorem screenTracking (b : AxisBody) (p req : Int) (c : AxisCtx) (s : State) :
    PinsFollow (screenTracking x b p req c s) := by
  unfold Machine.screenTracking
  dsimp only
  split
  next => exact passCandidate ..
  next => exact (pinsFollow_setCtx ..).raise _

theorem screenAxis (h : PinsFollow s) (req : Option Int) (synthesised : Bool) :
    PinsFollow (screenAxis x req synthesised s) := by
  unfold Machine.screenAxis
  dsimp only
  split
  next => exact pinsFollow_setCtx ..
  next =>
    split
    next => exact screenHeld ..
    next => exact pinsFollow_setCtx ..
  next =>
    split
    next => exact screenTracking ..
    next => exact (pinsFollow_setCtx ..).raise _
  next => exact h
  next => exact pinsFollow_setCtx ..

theorem screenAndFix (h : PinsFollow s) (req : Option Int) (e : Screening) : PinsFollow (screenAndFix x req e s) :=
  h.screenAxis req e.synthesised

theorem takeConsoleRecord (h : PinsFollow s) (r : ConsoleRecord) (e : Screening) : PinsFollow (takeConsoleRecord r e s) := by
  unfold Machine.takeConsoleRecord
  split
  next => exact h
  next =>
    split
    next => exact h
    next =>
      split
      next => exact h
      next => exact h.screenAndFix _ e

theorem touched {raw : Int} (h : PinsFollow s) (ht : Touched raw s t) : PinsFollow t := by
  induction ht with
  | refl => exact h
  | @tail u _ _ htouch ih =>
    cases htouch with
    | quiet | sample => exact ih
    | context | learn | complete => exact pinsFollow_setCtx ..
    | fault x f =>
      exact (pinsFollow_setCtx x ((ctxOf u x).takeFault f) u).of_same (by simp) (by simp [takeFault]) (by simp [takeFault])
    | stop x k =>
      unfold stopBetween
      dsimp only
      split
      next => exact pinsFollow_setCtx ..
      next => exact ih

theorem blockStep (h : PinsFollow s) {c : Instr} (hstep : BlockStep s c t) : PinsFollow t := by
  cases hstep with
  | reset =>
    exact ((pinsFollow_iff _).mpr reset_outputs).of_same (by simp [resetOf]) (by simp [resetOf]) (by simp [resetOf])
  | record e r rest => exact h.takeConsoleRecord r _
  | screened e x => exact h.screenAndFix none _
  | placed e r rest => exact (h.touched (Touched.judgeAppend (raw := 0) .refl e.seq r)).of_same rfl rfl rfl
  | feedback r rest more => exact h.touched (.takeNextFeedback r rest more)
  | nothing | passed | downSent | upSent => exact h
  | discarded | routed | routedAt | deadline | emitted | rawSame | rawChanged | settled | reportDue | reportBuilt
  | reportSent => exact h.of_same (by simp) (by simp) (by simp)

theorem accepts (h : PinsFollow s) {c : Instr} (haccept : Accepts s c t) : PinsFollow t := by
  cases haccept with
  | halt => exact (pinsFollow_mapCtx _ s).of_same (by simp; rfl) (by simp) (by simp)
  | take g => exact (pinsFollow_mapCtx _ { s with active := some g, staged := none }).of_same (by simp; rfl) (by simp) (by simp)
  | restart =>
    exact (pinsFollow_mapCtx (fun _ c => c.restarted) s).of_same (by simp [restartOwners])
      (by simp [restartOwners, mapCtx_anyFault]) (by simp [restartOwners, mapCtx_inMotion])
  | clearFault | putAxis => exact pinsFollow_setCtx ..
  | untare x => exact pinsFollow_setCtx x (ctxOf s x).untared s
  | eraseAxis x => exact pinsFollow_setCtx x AxisCtx.cleared s
  | putSettings => exact pinsFollow_mapCtx ..
  | mode | putLine | eraseLine => exact h.of_same (by simp) (by simp) (by simp)
  | read | setMask | putPair | erasePair | lockAxis | lockPair | lockLine | tare | stage | drop => exact h

theorem exec (h : PinsFollow s) {c : Instr} (hexec : exec c s = .next t) : PinsFollow t :=
  exec_ind hexec h (fun _ => h.blockStep) (fun _ _ => h) (fun _ _ _ _ hu => hu) (fun _ _ hu => hu)
    (fun rest more _ => PinsFollow.accepts (s := withoutFront rest more s) h)

theorem step (h : PinsFollow s) (hstep : step s = .next t) : PinsFollow t :=
  step_ind hstep (fun _ => h) (fun _ => h) fun _ q => PinsFollow.exec (s := { s with pending := q }) h

end PinsFollow

/-! ## The event unit (R174, R177, R178) -/

namespace EventUnit.Lawful
variable {u : EventUnit} {s t : State}

theorem unmask (h : u.Lawful) (old : BitVec 7) (k : Fin 4) : (u.unmask old k).Lawful := by
  unfold EventUnit.unmask
  split
  next =>
    split
    next held hheld =>
      refine EventUnit.Lawful.offer ?_ (h.latches k held hheld).2
      refine { h with latches := fun j q hq => ?_ }
      rw [tget_tset] at hq
      split at hq
      next => nomatch hq
      next => exact h.latches j q hq
    next => exact h
  next => exact h

theorem setMask (h : u.Lawful) (m : BitVec 7) : (u.setMask m).Lawful := by
  unfold EventUnit.setMask
  have hmask : EventUnit.Lawful { u with mask := m } := { h with }
  generalize ({ u with mask := m } : EventUnit) = v at hmask
  induction List.finRange 4 generalizing v with
  | nil => exact hmask
  | cons k ks ih => exact ih _ (hmask.unmask _ k)

/-- A queue without events, and latches without events, keep the laws (R41, R174). -/
theorem of_empty (hqueue : u.queue = []) (hlatches : u.latches = Vector.replicate 4 none) : u.Lawful where
  room := by simp [hqueue]
  ordered := by simp [hqueue]
  counts := by simp [hqueue]
  latches := by simp [hlatches]

theorem taken (h : u.Lawful) (n : Nat) : EventUnit.Lawful { u with queue := u.queue.drop n } where
  room := (List.length_drop ▸ Nat.sub_le _ _).trans h.room
  ordered := h.ordered.sublist (List.drop_sublist n _)
  counts := fun q hq => h.counts q ((List.drop_sublist n _).mem hq)
  latches := h.latches

theorem buildReport (h : s.ev.Lawful) : (buildReport s).ev.Lawful := by
  unfold Machine.buildReport
  simp only [handReport_same]
  exact h.taken _

theorem blockStep (h : s.ev.Lawful) {c : Instr} (hstep : BlockStep s c t) : t.ev.Lawful := by
  cases hstep with
  | nothing | discarded | passed | rawSame | downSent | upSent => simpa using h
  | reset => exact (settleAllDue_raised (resetOf s)).lawful (.of_empty rfl rfl)
  | routed _ port f => exact (route_raised port f _).lawful (by simpa using h)
  | routedAt _ moment port f => exact (route_raised port f _).lawful (by simpa using h)
  | deadline => exact (synthesise_raised _).lawful h
  | record e r rest => exact (takeConsoleRecord_raised r _ s).lawful h
  | screened e x => exact (screenAxis_raised x none _ s).lawful h
  | placed e r rest => exact (judgeAppend_raised e.seq r s).lawful h
  | emitted => simpa using h
  | feedback r rest more => exact (takeFeedbackRecord_raised r { s with fb := _ }).lawful h
  | rawChanged moment l level => exact (settleIfDue_raised l _).lawful (by simpa using h)
  | settled l level => exact (settleLine_raised l _).lawful h
  | reportDue => exact { h with }
  | reportBuilt => exact EventUnit.Lawful.buildReport (s := restartReportTimer (advanceTo s.ev.reportDue s)) { h with }
  | reportSent => exact { h with }

theorem accepts (h : s.ev.Lawful) {c : Instr} (haccept : Accepts s c t) : t.ev.Lawful := by
  cases haccept with
  | mode m => exact (abortTare_raised .mode { s with req := { s.req with mode := m } }).lawful h
  | setMask m => exact h.setMask m
  | halt axes => exact (raiseAll_raised _ (mapCtx _ s)).lawful h
  | restart => exact (settleAllDue_raised (restartOwners s)).lawful (.of_empty rfl rfl)
  | putLine l f b => exact (writeLine_raised l b s).lawful h
  | eraseLine l => exact (eraseLine_raised l s).lawful h
  | take g =>
    exact ((raiseAll_raised _ (mapCtx _ { s with active := some g, staged := none })).trans (informTare_raised _)).lawful h
  | read | clearFault | putPair | putAxis | eraseAxis | erasePair | putSettings | lockAxis | lockPair | lockLine | tare
  | untare | stage | drop => simpa using h

theorem exec (h : s.ev.Lawful) {c : Instr} (hexec : exec c s = .next t) : t.ev.Lawful :=
  exec_ind (P := fun u => u.ev.Lawful) hexec h (fun _ => EventUnit.Lawful.blockStep h) (fun _ _ => h) (fun _ _ _ _ hu => hu)
    (fun ev _ hu => hu.raise ev) (fun rest more _ => EventUnit.Lawful.accepts (s := withoutFront rest more s) h)

theorem step (h : s.ev.Lawful) (hstep : step s = .next t) : t.ev.Lawful :=
  step_ind (P := fun u => u.ev.Lawful) hstep (fun _ => h) (fun _ => h)
    fun _ q => EventUnit.Lawful.exec (s := { s with pending := q }) h

end EventUnit.Lawful

/-! ## The lines (R84 to R87) -/

namespace LinesLawful
variable {s t : State}

theorem of_same (h : LinesLawful s) (hlines : t.lines = s.lines) : LinesLawful t := fun l => by
  rw [hlines]
  exact h l

theorem update (h : LinesLawful s) {l : Line} {x : LineState} (hx : x.Lawful) (hlines : t.lines = tset s.lines l x) :
    LinesLawful t := fun k => by
  rw [hlines, tget_tset]
  split
  next => exact hx
  next => exact h k

/-- A line UNSETTLED at its raw level is lawful (R84, R87). -/
theorem unsettledAt_lawful (raw : Level) (moment : Nat) : (LineState.unsettledAt raw moment).Lawful := by
  simp [LineState.Lawful, LineState.unsettledAt]

theorem settleLine (h : LinesLawful s) (l : Line) : LinesLawful (settleLine l s) := by
  unfold Machine.settleLine
  dsimp only
  split
  next => exact h
  next level hpending =>
    refine h.update (l := l) (x := { tget s.lines l with settled := .known level, pending := none }) ?_ rfl
    have hl := h l
    rw [LineState.Lawful, hpending] at hl
    split at hl
    next => nomatch hl
    next => simp [LineState.Lawful, Option.some.inj hl]

theorem settleIfDue (h : LinesLawful s) (l : Line) : LinesLawful (settleIfDue l s) := by
  unfold Machine.settleIfDue
  split
  next => exact h.settleLine l
  next => exact h

theorem settleAllDue (h : LinesLawful s) : LinesLawful (settleAllDue s) := by
  unfold Machine.settleAllDue
  induction allLines generalizing s with
  | nil => exact h
  | cons l ls ih => exact ih (h.settleIfDue l)

theorem rawChanged (h : LinesLawful s) (l : Line) (level : Level) : LinesLawful (rawChanged l level s) := by
  refine h.update (l := l) ?_ rfl
  unfold LineState.Lawful
  by_cases hsettled : (tget s.lines l).settled = .known level <;> simp [hsettled]

theorem blockStep (h : LinesLawful s) {c : Instr} (hstep : BlockStep s c t) : LinesLawful t := by
  cases hstep with
  | reset =>
    refine LinesLawful.settleAllDue fun l => ?_
    rw [resetOf, tget_tmap]
    exact unsettledAt_lawful _ _
  | rawChanged moment l level =>
    exact LinesLawful.settleIfDue (LinesLawful.rawChanged (s := advanceTo moment s) h l level) l
  | settled l level => exact LinesLawful.settleLine (s := advanceTo _ s) h l
  | feedback | placed => exact h.of_same (by simp [takeNextFeedback, placeRecord])
  | nothing | discarded | routed | routedAt | deadline | record | screened | passed | emitted | rawSame | reportDue
  | reportBuilt | downSent | upSent | reportSent => exact h.of_same (by simp)

theorem accepts (h : LinesLawful s) {c : Instr} (haccept : Accepts s c t) : LinesLawful t := by
  cases haccept with
  | restart =>
    refine LinesLawful.settleAllDue fun l => ?_
    simp only [restartOwners, unsettleLines, tget_tmap]
    exact unsettledAt_lawful _ _
  | putLine l f b => exact LinesLawful.settleIfDue (s := setLineEntry l _ s) h l
  | eraseLine l => exact LinesLawful.settleIfDue (s := setLineEntry l _ s) h l
  | read | mode | setMask | halt | clearFault | putPair | putAxis | eraseAxis | erasePair | putSettings | lockAxis
  | lockPair | lockLine | tare | untare | stage | take | drop => exact h.of_same (by simp)

theorem exec (h : LinesLawful s) {c : Instr} (hexec : exec c s = .next t) : LinesLawful t :=
  exec_ind hexec h (fun _ => h.blockStep) (fun _ _ => h) (fun _ _ _ _ hu => hu) (fun _ _ hu => hu)
    (fun rest more _ => LinesLawful.accepts (s := withoutFront rest more s) h)

theorem step (h : LinesLawful s) (hstep : step s = .next t) : LinesLawful t :=
  step_ind hstep (fun _ => h) (fun _ => h) fun _ q => LinesLawful.exec (s := { s with pending := q }) h

end LinesLawful
end Sys2Proof.Machine
end

section
/-! SUPPORT. The cadence and the frame in the engine along every command (R42 to R46, R139 to R149). -/

namespace Sys2Proof.Machine

/-! ## The mode stands while frames are routed (R153, R154, R164) -/

theorem takeManageFrame_mode (f : ManageFrame) (s : State) : (takeManageFrame f s).req.mode = s.req.mode := by
  unfold takeManageFrame
  split
  next => split <;> rfl
  next => rfl

theorem route_mode (port : Port) (f : Frame) (s : State) : (route port f s).req.mode = s.req.mode := by
  unfold route
  split
  next =>
    unfold routeConsole
    split
    next => simp
    next =>
      split
      next => rfl
      next =>
        split
        next => exact takeManageFrame_mode ..
        next => simp
    next => rfl
    next => rfl
  next => simp

/-! ## The cadence (R139, R141, R149) -/

namespace CadenceLawful
variable {s t : State}

theorem of_same (h : CadenceLawful s) (hcyc : t.cyc = s.cyc) (hengine : t.engine = s.engine)
    (hmode : t.req.mode = s.req.mode) : CadenceLawful t where
  engine := by rw [hcyc, hengine]; exact h.engine
  timer := by rw [hcyc]; exact h.timer
  marked := by rw [hcyc]; exact h.marked
  stopped := by rw [hcyc]; exact h.stopped
  start := by rw [hcyc, hmode]; exact h.start
  late := by rw [hcyc]; exact h.late
  restarted := by rw [hcyc, hengine]; exact h.restarted

/-- The engine goes on with its frame. -/
theorem withEngine (h : CadenceLawful s) {e e' : Screening} (hengine : s.engine = some e)
    (hrestarted : e'.restarted = e.restarted) (hcyc : t.cyc = s.cyc) (ht : t.engine = some e')
    (hmode : t.req.mode = s.req.mode) : CadenceLawful t where
  engine := by rw [hcyc, ht]; simpa [hengine] using h.engine
  timer := by rw [hcyc]; exact h.timer
  marked := by rw [hcyc]; exact h.marked
  stopped := by rw [hcyc]; exact h.stopped
  start := by rw [hcyc, hmode]; exact h.start
  late := by rw [hcyc]; exact h.late
  restarted := by
    rw [hcyc, ht]
    rintro _ ⟨⟩ hset
    exact h.restarted e hengine (hrestarted ▸ hset)

/-- Out of START the engine may take a new frame (R42, R141). -/
theorem startScreening {synthesised : Bool} {records : List ConsoleRecord} (hmode : s.req.mode ≠ .start)
    (hlate : s.cyc.late ≤ 65535) : CadenceLawful (startScreening synthesised records s) where
  engine := by simp [Machine.startScreening]
  timer := by simp [Machine.startScreening]
  marked := nofun
  stopped := nofun
  start := fun h => absurd h hmode
  late := hlate
  restarted := by
    rintro _ ⟨⟩ hset
    exact absurd hset Bool.false_ne_true

theorem resumeConsole_late (seq : Word16) (s : State) : (resumeConsole seq s).cyc.late = 0 := by
  unfold resumeConsole
  split
  next => rfl
  next h => exact Nat.eq_zero_of_not_pos h

theorem acceptFrame {f : SetpointFrame} {gap : Option Word16} (hmode : s.req.mode ≠ .start) :
    CadenceLawful (acceptFrame f gap s) := by
  unfold Machine.acceptFrame
  dsimp only
  have hlate := resumeConsole_late f.hdr.seq { s with cyc := { s.cyc with conSeq := some f.hdr.seq } }
  refine startScreening ?_ ?_
  · cases gap <;> simpa using hmode
  · cases gap <;> simp [hlate]

/-- Outside START a cadence state is possible only there (R141). -/
theorem mode_ne_start (h : CadenceLawful s) (hcadence : s.cyc.cadence ≠ .stopped) : s.req.mode ≠ .start :=
  fun hmode => hcadence (h.start hmode)

theorem judgeSequence (h : CadenceLawful s) (f : SetpointFrame) (hmode : s.req.mode ≠ .start) :
    CadenceLawful (judgeSequence f s) := by
  unfold Machine.judgeSequence
  split
  next => exact acceptFrame hmode
  next =>
    dsimp only
    split
    next => exact acceptFrame hmode
    next =>
      split
      next => exact acceptFrame hmode
      next => exact h.of_same rfl rfl rfl

theorem judgeConsoleFrame (h : CadenceLawful s) (f : SetpointFrame) : CadenceLawful (judgeConsoleFrame f s) := by
  unfold Machine.judgeConsoleFrame
  split
  next => exact h
  next hmode => exact acceptFrame hmode
  next hmode =>
    split
    next => exact h.judgeSequence f hmode
    next => exact h.of_same rfl rfl rfl
  next => exact h.of_same rfl rfl rfl

theorem route (h : CadenceLawful s) (port : Port) (f : Frame) : CadenceLawful (route port f s) := by
  unfold Machine.route
  split
  next =>
    unfold routeConsole
    split
    next => exact h.judgeConsoleFrame _
    next =>
      split
      next => exact h
      next =>
        split
        next => exact h.of_same (by simp) (by simp) (takeManageFrame_mode ..)
        next => exact h.of_same (by simp) (by simp) (by simp)
    next => exact h
    next => exact h
  next => exact h.of_same (by simp) (by simp) (by simp)

theorem synthesise (h : CadenceLawful s) (hwaiting : s.cyc.cadence = .waiting) : CadenceLawful (synthesise s) := by
  have hmode : s.req.mode ≠ .start := h.mode_ne_start (by rw [hwaiting]; nofun)
  unfold Machine.synthesise
  refine startScreening ?_ ?_ <;> split
  · exact hmode
  · exact hmode
  · exact Nat.min_le_right _ _
  · exact Nat.min_le_right _ _

theorem emit (h : CadenceLawful s) {e : Screening} (hengine : s.engine = some e) : CadenceLawful (emit e s) := by
  have hscreening : s.cyc.cadence = .screening := h.engine.mpr (by simp [hengine])
  have hmode : s.req.mode ≠ .start := h.mode_ne_start (by rw [hscreening]; nofun)
  unfold Machine.emit
  dsimp only
  split
  next hset =>
    obtain ⟨-, hconSeq, hnoLate⟩ := h.restarted e hengine hset
    constructor
    case start => exact fun _ => rfl
    case stopped => exact fun _ => ⟨rfl, hconSeq, hnoLate⟩
    case late => exact h.late
    all_goals simp
  next =>
    constructor
    case start => exact fun hm => absurd (by simpa using hm) hmode
    case late => exact h.late
    all_goals simp

theorem screenAndFix (h : CadenceLawful s) {e e' : Screening} (hengine : s.engine = some e)
    (hrestarted : e'.restarted = e.restarted) (x : Axis) (req : Option Int) : CadenceLawful (screenAndFix x req e' s) :=
  h.withEngine (e' := { e' with fixed := insertRecord (recordOf x (ctxOf (screenAxis x req e'.synthesised s) x)) e'.fixed })
    hengine hrestarted (by simp) rfl (by simp)

theorem takeConsoleRecord (h : CadenceLawful s) {e e' : Screening} (hengine : s.engine = some e)
    (hrestarted : e'.restarted = e.restarted) (r : ConsoleRecord) : CadenceLawful (takeConsoleRecord r e' s) := by
  have htaken : CadenceLawful { s with engine := some e' } := h.withEngine hengine hrestarted rfl rfl rfl
  unfold Machine.takeConsoleRecord
  split
  next => exact htaken.of_same rfl rfl rfl
  next =>
    split
    next => exact htaken.of_same rfl rfl rfl
    next =>
      split
      next => exact htaken.of_same rfl rfl rfl
      next => exact h.screenAndFix hengine hrestarted _ _

theorem reset_lawful : CadenceLawful State.reset := by
  constructor
  case stopped => exact fun _ => ⟨rfl, rfl, rfl⟩
  all_goals simp [State.reset]

/-- The cadence stops with a RESTART, but for a frame in hand (R149). -/
theorem restartOwners (h : CadenceLawful s) : CadenceLawful (restartOwners s) := by
  have hcyc : (Machine.restartOwners s).cyc = s.cyc.restarted := rfl
  have hengine : (Machine.restartOwners s).engine = s.engine.map (fun e => { e with restarted := true }) := rfl
  constructor
  case start => exact nofun
  all_goals rw [hcyc]
  case engine =>
    rw [hengine, Option.isSome_map, ← h.engine, CycleMonitor.restarted]
    by_cases hscreening : s.cyc.cadence = .screening <;> simp [hscreening]
  case timer | marked =>
    by_cases hscreening : s.cyc.cadence = .screening <;> simp [CycleMonitor.restarted, hscreening]
  case stopped => exact fun _ => ⟨rfl, rfl, rfl⟩
  case late => exact Nat.zero_le _
  case restarted => exact fun _ _ _ => ⟨rfl, rfl, rfl⟩

theorem blockStep (h : CadenceLawful s) {c : Instr} (hstep : BlockStep s c t) : CadenceLawful t := by
  cases hstep with
  | reset => exact reset_lawful.of_same (by simp [resetOf]) (by simp [resetOf]) (by simp [resetOf])
  | routed _ port f => exact CadenceLawful.route (s := emptyBuffer port s) (h.of_same (by simp) (by simp) (by simp)) port f
  | routedAt _ moment port f =>
    exact CadenceLawful.route (s := emptyBuffer port (advanceTo moment s)) (h.of_same (by simp) (by simp) (by simp)) port f
  | deadline m hwaiting => exact CadenceLawful.synthesise (s := advanceTo _ s) (h.of_same rfl rfl rfl) hwaiting
  | record e r rest hengine => exact h.takeConsoleRecord (e' := { e with todo := rest }) hengine rfl r
  | screened e x hengine => exact h.screenAndFix (e' := { e with nextAxis := x.val + 1 }) hengine rfl x none
  | passed e x hengine => exact h.withEngine (e' := { e with nextAxis := x.val + 1 }) hengine rfl rfl rfl rfl
  | placed e r rest hengine =>
    exact h.withEngine (e' := { e with nextAxis := 128, fixed := rest, placed := e.placed ++ [(judgeAppend e.seq r s).2] })
      hengine rfl (by simp [placeRecord]) rfl (by simp [placeRecord])
  | emitted e moment hengine => exact CadenceLawful.emit (s := advanceTo moment s) (h.of_same rfl rfl rfl) hengine
  | feedback => exact h.of_same (by simp [takeNextFeedback]) (by simp [takeNextFeedback]) (by simp [takeNextFeedback])
  | reportBuilt =>
    exact h.of_same (by simp) (by simp) (by simp [buildReport])
  | reportSent => exact h.of_same rfl rfl rfl
  | nothing | discarded | rawSame | rawChanged | settled | reportDue | downSent | upSent =>
    exact h.of_same (by simp) (by simp) (by simp)

theorem accepts (h : CadenceLawful s) {c : Instr} (haccept : Accepts s c t) : CadenceLawful t := by
  cases haccept with
  | mode m hm =>
    have hkept : CadenceLawful { s with req := { s.req with mode := m } } :=
      { engine := h.engine, timer := h.timer, marked := h.marked, stopped := h.stopped, start := fun hs => absurd hs hm
        late := h.late, restarted := h.restarted }
    exact hkept.of_same (by simp) (by simp) (by simp)
  | restart => exact h.restartOwners.of_same (by simp) (by simp) (by simp)
  | read | setMask | halt | clearFault | putPair | putLine | putAxis | eraseAxis | erasePair | eraseLine | putSettings
  | lockAxis | lockPair | lockLine | tare | untare | stage | take | drop => exact h.of_same (by simp) (by simp) (by simp)

theorem exec (h : CadenceLawful s) {c : Instr} (hexec : exec c s = .next t) : CadenceLawful t :=
  exec_ind hexec h (fun _ => h.blockStep) (fun _ _ => h.of_same rfl rfl rfl) (fun _ _ _ _ hu => hu.of_same rfl rfl rfl)
    (fun _ _ hu => hu.of_same rfl rfl rfl)
    (fun rest more _ => CadenceLawful.accepts (s := withoutFront rest more s) (h.of_same rfl rfl rfl))

theorem step (h : CadenceLawful s) (hstep : step s = .next t) : CadenceLawful t :=
  step_ind hstep (fun _ => h.of_same rfl rfl rfl) (fun _ => h.of_same rfl rfl rfl)
    fun _ q => CadenceLawful.exec (s := { s with pending := q }) (h.of_same rfl rfl rfl)

end CadenceLawful

/-! ## Records in ascending axis number (R45) -/

theorem mem_insertRecord {r y : DownRecord} {l : List DownRecord} : y ∈ insertRecord r l ↔ y = r ∨ y ∈ l := by
  induction l with
  | nil => simp [insertRecord]
  | cons z l ih =>
    unfold insertRecord
    split
    next => simp only [List.mem_cons, ih]; tauto
    next => simp

/-- A record of a new axis keeps the order of the fixed ones. -/
theorem ascending_insertRecord {r : DownRecord} {l : List DownRecord} (h : (l.map DownRecord.axis).Pairwise (· < ·))
    (hnew : ∀ y ∈ l, y.axis ≠ r.axis) : ((insertRecord r l).map DownRecord.axis).Pairwise (· < ·) := by
  induction l with
  | nil => simp [insertRecord]
  | cons z l ih =>
    simp only [List.map_cons, List.pairwise_cons, List.forall_mem_map] at h
    obtain ⟨hz, hl⟩ := h
    unfold insertRecord
    split
    next hlt =>
      simp only [List.map_cons, List.pairwise_cons, List.forall_mem_map]
      refine ⟨fun y hy => ?_, ih hl fun y hy => hnew y (List.mem_cons_of_mem z hy)⟩
      rcases mem_insertRecord.mp hy with rfl | hy
      · exact hlt
      · exact hz y hy
    next hge =>
      have hfirst : r.axis < z.axis := lt_of_le_of_ne (not_lt.mp hge) (hnew z List.mem_cons_self).symm
      simp only [List.map_cons, List.pairwise_cons, List.forall_mem_map, List.forall_mem_cons]
      exact ⟨⟨hfirst, fun y hy => hfirst.trans (hz y hy)⟩, hz, hl⟩

@[simp] theorem recordOf_axis (x : Axis) (c : AxisCtx) : (recordOf x c).axis = x := by
  unfold recordOf
  split <;> rfl

/-- The record that an append leaves in the frame is of the same axis (R45). -/
@[simp] theorem judgeAppend_axis (seq : Word16) (r : DownRecord) (s : State) : (judgeAppend seq r s).2.axis = r.axis := by
  have happend (u : State) : (appendRecord seq r u).2.axis = r.axis := by
    unfold appendRecord
    dsimp only
    split
    next => rfl
    next =>
      split
      next => rfl
      next => split <;> rfl
  unfold judgeAppend
  split
  next => exact happend s
  next =>
    split
    next => rfl
    next => exact happend (chosen s)

theorem hasScreened_eq_false {e : Screening} {x : Axis} :
    e.hasScreened x = false ↔ ∀ y ∈ e.fixed ++ e.placed, y.axis ≠ x := by
  simp [Screening.hasScreened, or_imp, forall_and]

/-! ## The frame in the engine (R43 to R45) -/

namespace EngineLawful
variable {s t : State}

theorem of_same (h : EngineLawful s) (hengine : t.engine = s.engine) : EngineLawful t := by
  rw [EngineLawful, hengine]
  exact h

theorem withEngine {e : Screening} (he : e.Lawful) (hengine : t.engine = some e) : EngineLawful t := by
  intro e' he'
  rw [hengine] at he'
  exact Option.some.inj he' ▸ he

/-- A new frame has no records (R42). -/
theorem new_lawful (seq : Word16) (synthesised : Bool) (todo : List ConsoleRecord) : Screening.Lawful
    { seq := seq, synthesised := synthesised, todo := todo, nextAxis := 0, fixed := [], placed := [], restarted := false } where
  ascending := by simp
  phases := nofun
  bound := Nat.zero_le _

/-- No record is placed while the first two phases are not over (R45). -/
theorem placed_eq_nil {e : Screening} (he : e.Lawful) (h : e.todo ≠ [] ∨ e.nextAxis ≠ 128) : e.placed = [] := by
  by_contra hne
  obtain ⟨htodo, hnext⟩ := he.phases hne
  rcases h with h | h
  · exact h htodo
  · exact h hnext

/-- A frame with the record of a new axis fixed (R45). -/
theorem fixed_lawful {e e' : Screening} (he : e.Lawful) (hnone : e.placed = []) {q : DownRecord}
    (hfresh : e.hasScreened q.axis = false) (hplaced : e'.placed = e.placed) (hfixed : e'.fixed = e.fixed)
    (hbound : e'.nextAxis ≤ 128) : Screening.Lawful { e' with fixed := insertRecord q e'.fixed } where
  ascending := by
    have hascending := he.ascending
    rw [hnone, List.nil_append] at hascending
    rw [hplaced, hnone, hfixed, List.nil_append]
    exact ascending_insertRecord hascending fun y hy => hasScreened_eq_false.mp hfresh y (List.mem_append_left _ hy)
  phases := fun hne => absurd (hplaced.trans hnone) hne
  bound := hbound

theorem startScreening (synthesised : Bool) (records : List ConsoleRecord) (s : State) :
    EngineLawful (startScreening synthesised records s) := withEngine (new_lawful ..) rfl

theorem judgeConsoleFrame (h : EngineLawful s) (f : SetpointFrame) : EngineLawful (judgeConsoleFrame f s) := by
  unfold Machine.judgeConsoleFrame
  split
  next => exact h
  next => exact startScreening _ _ _
  next =>
    split
    next =>
      unfold judgeSequence
      split
      next => exact startScreening _ _ _
      next =>
        dsimp only
        split
        next => exact startScreening _ _ _
        next =>
          split
          next => exact startScreening _ _ _
          next => exact h
    next => exact h
  next => exact h

theorem route (h : EngineLawful s) (port : Port) (f : Frame) : EngineLawful (route port f s) := by
  unfold Machine.route
  split
  next =>
    unfold routeConsole
    split
    next => exact h.judgeConsoleFrame _
    next =>
      split
      next => exact h
      next => split <;> exact h.of_same (by simp)
    next => exact h
    next => exact h
  next => exact h.of_same (by simp)

theorem takeConsoleRecord (h : EngineLawful s) {e : Screening} {r : ConsoleRecord} {rest : List ConsoleRecord}
    (hengine : s.engine = some e) (htodo : e.todo = r :: rest) :
    EngineLawful (takeConsoleRecord r { e with todo := rest } s) := by
  have he := h e hengine
  have hnone : e.placed = [] := placed_eq_nil he (.inl (by simp [htodo]))
  have hdropped (ev : Event) : EngineLawful (raise ev { s with engine := some { e with todo := rest } }) :=
    withEngine (e := { e with todo := rest }) { he with phases := fun hne => absurd hnone hne } rfl
  unfold Machine.takeConsoleRecord
  split
  next => exact hdropped _
  next x _ =>
    split
    next => exact hdropped _
    next =>
      split
      next => exact hdropped _
      next hfresh =>
        refine withEngine (fixed_lawful (e' := { e with todo := rest }) he hnone ?_ rfl rfl he.bound) rfl
        rw [recordOf_axis]
        exact Bool.eq_false_iff.mpr hfresh

theorem blockStep (h : EngineLawful s) {c : Instr} (hstep : BlockStep s c t) : EngineLawful t := by
  cases hstep with
  | reset =>
    have hnone : (settleAllDue (resetOf s)).engine = none := by simp [resetOf, State.reset]
    intro e he
    rw [hnone] at he
    nomatch he
  | routed _ port f => exact EngineLawful.route (s := emptyBuffer port s) (h.of_same (by simp)) port f
  | routedAt _ moment port f =>
    exact EngineLawful.route (s := emptyBuffer port (advanceTo moment s)) (h.of_same (by simp)) port f
  | deadline => exact startScreening _ _ _
  | record e r rest hengine htodo => exact h.takeConsoleRecord hengine htodo
  | screened e x hengine htodo hreached hscreenable =>
    have he := h e hengine
    have hnone : e.placed = [] := placed_eq_nil he (.inr (by omega))
    simp only [screenable, Bool.and_eq_true, Bool.not_eq_true'] at hscreenable
    refine withEngine (fixed_lawful (e' := { e with nextAxis := x.val + 1 }) he hnone ?_ rfl rfl x.isLt) rfl
    rw [recordOf_axis]
    exact hscreenable.2
  | passed e x hengine htodo hreached =>
    have he := h e hengine
    have hnone : e.placed = [] := placed_eq_nil he (.inr (by omega))
    exact withEngine (e := { e with nextAxis := x.val + 1 })
      { ascending := he.ascending, phases := fun hne => absurd hnone hne, bound := x.isLt } rfl
  | placed e r rest hengine hfixed htodo =>
    have he := h e hengine
    refine withEngine (e := { e with nextAxis := 128, fixed := rest, placed := e.placed ++ [(judgeAppend e.seq r s).2] }) ?_ rfl
    refine { ascending := ?_, phases := fun _ => ⟨htodo, rfl⟩, bound := le_rfl }
    have hascending := he.ascending
    rw [hfixed] at hascending
    simpa using hascending
  | emitted e moment =>
    have hnone : (emit e (advanceTo moment s)).engine = none := by
      unfold emit
      dsimp only
      split <;> simp
    intro e' he'
    rw [hnone] at he'
    nomatch he'
  | feedback => exact h.of_same (by simp [takeNextFeedback])
  | nothing | discarded | rawSame | rawChanged | settled | reportDue | reportBuilt | downSent | upSent | reportSent =>
    exact h.of_same (by simp)

theorem accepts (h : EngineLawful s) {c : Instr} (haccept : Accepts s c t) : EngineLawful t := by
  cases haccept with
  | restart =>
    intro e he
    simp only [settleAllDue_same, restartOwners, unsettleLines_same, mapCtx_engine] at he
    obtain ⟨e', he', rfl⟩ := Option.map_eq_some_iff.mp he
    exact { h e' he' with }
  | read | mode | setMask | halt | clearFault | putPair | putLine | putAxis | eraseAxis | erasePair | eraseLine | putSettings
  | lockAxis | lockPair | lockLine | tare | untare | stage | take | drop => exact h.of_same (by simp)

theorem exec (h : EngineLawful s) {c : Instr} (hexec : exec c s = .next t) : EngineLawful t :=
  exec_ind hexec h (fun _ => h.blockStep) (fun _ _ => h) (fun _ _ _ _ hu => hu) (fun _ _ hu => hu)
    (fun rest more _ => EngineLawful.accepts (s := withoutFront rest more s) h)

theorem step (h : EngineLawful s) (hstep : step s = .next t) : EngineLawful t :=
  step_ind hstep (fun _ => h) (fun _ => h) fun _ q => EngineLawful.exec (s := { s with pending := q }) h

end EngineLawful
end Sys2Proof.Machine
end

section
/-! SUPPORT. The answers and the emitters along every command (R156 to R163). -/

namespace Sys2Proof.Machine

/-! ## The answers and the unanswered requests (R161) -/

namespace AnswersFit
variable {s t : State}

theorem of_same (h : AnswersFit s) (hanswers : t.req.answers.length ≤ s.req.answers.length)
    (hframes : t.req.frames = s.req.frames) : AnswersFit t := by
  obtain ⟨hroom, hfull⟩ := h
  rw [AnswersFit, unanswered, hframes]
  rw [unanswered] at hroom
  exact ⟨by omega, hfull⟩

theorem of_req (h : AnswersFit s) (hreq : t.req = s.req) : AnswersFit t :=
  h.of_same (by rw [hreq]) (by rw [hreq])

/-- Taking the front request leaves room for its answer (R161, R162). -/
theorem answered (h : AnswersFit s) {e : Envelope} {rest : List Envelope} {more : List (List Envelope)}
    (hfront : FrontRequest e rest more s) (hanswers : t.req.answers.length ≤ s.req.answers.length + 1)
    (hframes : t.req.frames = framesLeft rest more) : AnswersFit t := by
  obtain ⟨hroom, hfull⟩ := h
  rw [FrontRequest] at hfront
  rw [unanswered, hfront, List.map_cons, List.sum_cons, List.length_cons] at hroom
  rw [AnswersFit, unanswered, hframes, framesLeft]
  rw [hfront] at hfull
  obtain ⟨-, hmore⟩ := List.forall_mem_cons.mp hfull
  split
  next => exact ⟨by omega, hmore⟩
  next hrest =>
    refine ⟨by rw [List.map_cons, List.sum_cons]; omega, List.forall_mem_cons.mpr ⟨?_, hmore⟩⟩
    exact fun hnil => hrest (List.isEmpty_iff.mpr hnil)

theorem takeManageFrame (h : AnswersFit s) (f : ManageFrame) : AnswersFit (takeManageFrame f s) := by
  unfold Machine.takeManageFrame
  split
  next hfits =>
    split
    next => exact h
    next hsome =>
      have hroom : s.req.answers.length + unanswered s + f.requests.length ≤ 16 :=
        of_decide_eq_true hfits
      refine ⟨?_, ?_⟩
      · simp only [unanswered, List.map_append, List.sum_append, List.map_cons, List.map_nil, List.sum_cons, List.sum_nil]
        rw [unanswered] at hroom
        omega
      · simp only [List.mem_append, List.mem_singleton]
        rintro g (hg | rfl)
        · exact h.2 g hg
        · exact fun hnil => hsome (List.isEmpty_iff.mpr hnil)
  next => exact h.of_same le_rfl rfl

theorem route (h : AnswersFit s) (port : Port) (f : Frame) : AnswersFit (route port f s) := by
  unfold Machine.route
  split
  next =>
    unfold routeConsole
    split
    next => exact h.of_req (by simp)
    next =>
      split
      next => exact h
      next =>
        split
        next => exact h.takeManageFrame _
        next => exact h.of_req (by simp)
    next => exact h
    next => exact h
  next => exact h.of_req (by simp)

theorem blockStep (h : AnswersFit s) {c : Instr} (hstep : BlockStep s c t) : AnswersFit t := by
  cases hstep with
  | reset =>
    have hreq : (settleAllDue (resetOf s)).req = State.reset.req := by simp [resetOf]
    rw [AnswersFit, unanswered, hreq]
    exact ⟨by decide, nofun⟩
  | routed _ port f => exact AnswersFit.route (s := emptyBuffer port s) (h.of_req (by simp)) port f
  | routedAt _ moment port f =>
    exact AnswersFit.route (s := emptyBuffer port (advanceTo moment s)) (h.of_req (by simp)) port f
  | feedback | placed => exact h.of_req (by simp [takeNextFeedback, placeRecord])
  | reportBuilt => exact h.of_same (by simp [buildReport]) (by simp [buildReport])
  | reportSent => exact h.of_same le_rfl rfl
  | nothing | discarded | deadline | record | screened | passed | emitted | rawSame | rawChanged | settled | reportDue
  | downSent | upSent => exact h.of_req (by simp)

/-- An accepted request has not queued its answer yet, and takes no other request (R162, R163). -/
theorem accepts_req {c : Instr} (haccept : Accepts s c t) :
    t.req.answers.length ≤ s.req.answers.length ∧ t.req.frames = s.req.frames := by
  cases haccept with
  | restart => simp [restartOwners]
  | read | mode | setMask | halt | clearFault | putPair | putLine | putAxis | eraseAxis | erasePair | eraseLine | putSettings
  | lockAxis | lockPair | lockLine | tare | untare | stage | take | drop => simp

theorem requestStep (h : AnswersFit s) {c : Instr} (hstep : RequestStep c s t) : AnswersFit t := by
  cases hstep with
  | idle => exact h
  | carried hfront hcarried =>
    cases hcarried with
    | refused => exact h.answered hfront (by simp [withoutFront]) rfl
    | shielded => exact h.answered hfront (by simp [refuseProtected, refuse, withoutFront]) rfl
    | accepted body u haccept =>
      obtain ⟨hanswers, hframes⟩ := accepts_req haccept
      exact h.answered hfront (by rw [answer_answers, List.length_append]; exact Nat.succ_le_succ hanswers) hframes

theorem exec (h : AnswersFit s) {c : Instr} (hexec : exec c s = .next t) : AnswersFit t := by
  cases hc : isRequest c with
  | true =>
    obtain ⟨u, hu, hstep⟩ := exec_requestStep hc s
    obtain rfl : u = t := Host.Outcome.next.inj (hu.symm.trans hexec)
    exact h.requestStep hstep
  | false =>
    obtain ⟨u, hu, hstep⟩ := exec_blockStep hc s
    obtain rfl : u = t := Host.Outcome.next.inj (hu.symm.trans hexec)
    exact h.blockStep hstep

theorem step (h : AnswersFit s) (hstep : step s = .next t) : AnswersFit t :=
  step_ind hstep (fun _ => h) (fun _ => h) fun _ q => AnswersFit.exec (s := { s with pending := q }) h

end AnswersFit

/-! ## The emitters (R156 to R158) -/

namespace EmittersLawful
variable {s t : State}

theorem of_same (h : EmittersLawful s) (hdown : t.down = s.down) (hup : t.up = s.up) : EmittersLawful t where
  downIdle := by rw [hdown]; exact h.downIdle
  downRoom := by rw [hdown]; exact h.downRoom
  upIdle := by rw [hup]; exact h.upIdle
  upRoom := by rw [hup]; exact h.upRoom

theorem handSetpoint (h : EmittersLawful s) (f : DownFrame) : EmittersLawful (handSetpoint f s) := by
  unfold Machine.handSetpoint
  split
  next => exact { h with downIdle := nofun }
  next htx => exact { h with downIdle := fun hidle => absurd (htx.symm.trans hidle) nofun }

theorem handManage (h : EmittersLawful s) (f : ManageFrame) : EmittersLawful (handManage f s) := by
  unfold Machine.handManage
  split
  next => exact { h with downIdle := nofun }
  next hbusy =>
    split
    next hroom =>
      refine { h with downIdle := fun hidle => ?_, downRoom := ?_ }
      · obtain ⟨hslot, hqueue⟩ := h.downIdle hidle
        exact absurd ⟨Option.isNone_iff_eq_none.mpr hidle, by simp [hslot, hqueue]⟩ hbusy
      · simpa [Config.manageRoom] using hroom
    next => exact h.of_same rfl rfl

theorem handForward (h : EmittersLawful s) (f : Forwarded) : EmittersLawful (handForward f s) := by
  unfold Machine.handForward
  split
  next => exact { h with upIdle := nofun }
  next hbusy =>
    split
    next hroom =>
      refine { h with upIdle := fun hidle => ?_, upRoom := ?_ }
      · obtain ⟨hslot, hqueue⟩ := h.upIdle hidle
        exact absurd ⟨Option.isNone_iff_eq_none.mpr hidle, by simp [hslot, hqueue]⟩ hbusy
      · simpa [Config.forwardRoom] using hroom
    next => exact h

theorem handReport (h : EmittersLawful s) (f : ReportFrame) : EmittersLawful (handReport f s) := by
  unfold Machine.handReport
  split
  next => exact { h with upIdle := nofun }
  next hbusy =>
    refine { h with upIdle := fun hidle => ?_ }
    exact absurd ⟨Option.isNone_iff_eq_none.mpr hidle, by simp [(h.upIdle hidle).2]⟩ hbusy

theorem chooseDown (h : EmittersLawful s) : EmittersLawful { s with down := s.down.choose } := by
  have hroom := h.downRoom
  refine { h with downIdle := ?_, downRoom := ?_ } <;> simp only [DownEmitter.choose] <;> split
  · nofun
  · nofun
  next hslot hqueue => exact fun _ => ⟨hslot, hqueue⟩
  · exact hroom
  next hqueue =>
    rw [hqueue] at hroom
    exact (Nat.le_succ _).trans hroom
  · exact hroom

theorem chooseUp (h : EmittersLawful s) : EmittersLawful { s with up := s.up.choose } := by
  have hroom := h.upRoom
  refine { h with upIdle := ?_, upRoom := ?_ } <;> simp only [UpEmitter.choose] <;> split
  · nofun
  · nofun
  next hqueue hslot => exact fun _ => ⟨hslot, hqueue⟩
  next hqueue =>
    rw [hqueue] at hroom
    exact (Nat.le_succ _).trans hroom
  · exact Nat.zero_le _
  · exact hroom

theorem route (h : EmittersLawful s) (port : Port) (f : Frame) : EmittersLawful (route port f s) := by
  unfold Machine.route
  split
  next =>
    unfold routeConsole
    split
    next => exact h.of_same (by simp) (by simp)
    next =>
      split
      next => exact h
      next =>
        split
        next => exact h.of_same (by simp) (by simp)
        next =>
          unfold takeForeignFrame
          split
          next => exact h.of_same rfl rfl
          next => exact h.handManage _
    next => exact h
    next => exact h
  next =>
    unfold routeDrive
    split
    next g => exact EmittersLawful.handForward (s := takeFeedbackFrame g s) (h.of_same (by simp) (by simp)) _
    next => exact h.handForward _
    next => exact h
    next => exact h

theorem emit (h : EmittersLawful s) (e : Screening) : EmittersLawful (emit e s) := by
  have hhanded : EmittersLawful (Machine.handSetpoint (builtFrame e s) { s with engine := none }) :=
    EmittersLawful.handSetpoint (s := { s with engine := none }) (h.of_same rfl rfl) _
  unfold Machine.emit
  dsimp only
  split <;> exact hhanded.of_same rfl rfl

theorem reset_lawful : EmittersLawful State.reset where
  downIdle := fun _ => ⟨rfl, rfl⟩
  downRoom := Nat.zero_le _
  upIdle := fun _ => ⟨rfl, rfl⟩
  upRoom := Nat.zero_le _

theorem blockStep (h : EmittersLawful s) {c : Instr} (hstep : BlockStep s c t) : EmittersLawful t := by
  cases hstep with
  | reset => exact reset_lawful.of_same (by simp [resetOf]) (by simp [resetOf])
  | routed _ port f => exact EmittersLawful.route (s := emptyBuffer port s) (h.of_same (by simp) (by simp)) port f
  | routedAt _ moment port f =>
    exact EmittersLawful.route (s := emptyBuffer port (advanceTo moment s)) (h.of_same (by simp) (by simp)) port f
  | emitted e moment => exact EmittersLawful.emit (s := advanceTo moment s) (h.of_same rfl rfl) e
  | feedback | placed => exact h.of_same (by simp [takeNextFeedback, placeRecord]) (by simp [takeNextFeedback, placeRecord])
  | reportBuilt =>
    unfold buildReport
    refine EmittersLawful.handReport (h.of_same ?_ ?_) _ <;> simp
  | downSent => exact h.chooseDown
  | upSent => exact h.chooseUp
  | reportSent => exact h.chooseUp.of_same rfl rfl
  | nothing | discarded | deadline | record | screened | passed | rawSame | rawChanged | settled | reportDue =>
    exact h.of_same (by simp) (by simp)

theorem accepts (h : EmittersLawful s) {c : Instr} (haccept : Accepts s c t) : EmittersLawful t := by
  cases haccept with
  | restart => exact h.of_same (by simp [restartOwners]) (by simp [restartOwners])
  | read | mode | setMask | halt | clearFault | putPair | putLine | putAxis | eraseAxis | erasePair | eraseLine | putSettings
  | lockAxis | lockPair | lockLine | tare | untare | stage | take | drop => exact h.of_same (by simp) (by simp)

theorem exec (h : EmittersLawful s) {c : Instr} (hexec : exec c s = .next t) : EmittersLawful t :=
  exec_ind hexec h (fun _ => h.blockStep) (fun _ _ => h.of_same rfl rfl) (fun _ _ _ _ hu => hu.of_same rfl rfl)
    (fun _ _ hu => hu.of_same rfl rfl)
    (fun rest more _ => EmittersLawful.accepts (s := withoutFront rest more s) (h.of_same rfl rfl))

theorem step (h : EmittersLawful s) (hstep : step s = .next t) : EmittersLawful t :=
  step_ind hstep (fun _ => h.of_same rfl rfl) (fun _ => h.of_same rfl rfl)
    fun _ q => EmittersLawful.exec (s := { s with pending := q }) (h.of_same rfl rfl)

end EmittersLawful
end Sys2Proof.Machine
end

section
/-! SUPPORT. The tare in flight and the cue slots along every command (R24, R98 to R105, R132 to R136). -/

namespace Sys2Proof.Machine

/-! ## What a screening makes of the state of its axis (R47) -/

/-- The axis screened keeps its record and its rest, and tracks only as a member of the active group or because it did so before. -/
structure ScreenedState (s : State) (x : Axis) (c : AxisCtx) : Prop where
  configured : c.state = .unconfigured → (ctxOf s x).state = .unconfigured
  parked : (ctxOf s x).state = .parked → c.state = .parked
  tracking : c.state = .tracking → (ctxOf s x).state = .tracking ∨ inActive s x = true

section
variable {s : State} {x : Axis} {c c' : AxisCtx}

theorem ramped_state (b : AxisBody) (brakeSettle : Nat) (c : AxisCtx) : (c.ramped b brakeSettle).state = .parked ∨
    (c.ramped b brakeSettle).state = .held ∨ (c.ramped b brakeSettle).state = c.state := by
  unfold AxisCtx.ramped
  dsimp only [AxisCtx.withOutcome]
  split
  next =>
    split
    next => exact .inl rfl
    next => exact .inr (.inl rfl)
  next => exact .inr (.inr rfl)

theorem ScreenedState.of_state (h : c.state = (ctxOf s x).state) : ScreenedState s x c where
  configured := fun hc => h.symm.trans hc
  parked := fun hx => h.trans hx
  tracking := fun hc => .inl (h.symm.trans hc)

theorem ScreenedState.ramped (hstate : (ctxOf s x).state = .stopping ∨ (ctxOf s x).state = .tracking)
    (hc : c.state = .stopping) (b : AxisBody) (brakeSettle : Nat) : ScreenedState s x (c.ramped b brakeSettle) := by
  have hramped := ramped_state b brakeSettle c
  rw [hc] at hramped
  constructor
  · intro h
    rw [h] at hramped
    rcases hramped with h | h | h <;> nomatch h
  · intro h
    rw [h] at hstate
    rcases hstate with h | h <;> nomatch h
  · intro h
    rw [h] at hramped
    rcases hramped with h | h | h <;> nomatch h

theorem ScreenedState.tracked (hstate : (ctxOf s x).state = .tracking ∨ (ctxOf s x).state = .held ∧ inActive s x = true)
    (hc : c.state = .tracking) : ScreenedState s x c where
  configured := fun h => nomatch hc.symm.trans h
  parked := fun h => by
    rw [h] at hstate
    rcases hstate with h | ⟨h, -⟩ <;> nomatch h
  tracking := fun _ => hstate.imp_right And.right

theorem screenHeld_state (b : AxisBody) (p req : Int) (hc : c.state = (ctxOf s x).state) (hheld : c.state = .held) :
    ∃ c', (screenHeld x b p req c s).ctx = tset s.ctx x c' ∧ ScreenedState s x c' := by
  unfold screenHeld
  split
  next hmay =>
    have hmember : inActive s x = true := by
      simp only [mayCapture, Bool.and_eq_true] at hmay
      exact hmay.1.1.1
    dsimp only
    split
    next => exact ⟨_, passCandidate_ctx .., .tracked (.inr ⟨hc.symm.trans hheld, hmember⟩) rfl⟩
    next => exact ⟨_, setCtx_ctx .., .of_state hc⟩
  next => exact ⟨_, setCtx_ctx .., .of_state hc⟩

theorem screenTracking_state (b : AxisBody) (p req : Int) (hc : c.state = (ctxOf s x).state) (htracking : c.state = .tracking) :
    ∃ c', (screenTracking x b p req c s).ctx = tset s.ctx x c' ∧ ScreenedState s x c' := by
  have hx : (ctxOf s x).state = .tracking := hc.symm.trans htracking
  unfold screenTracking
  dsimp only
  split
  next => exact ⟨_, passCandidate_ctx .., .tracked (.inl hx) rfl⟩
  next => exact ⟨_, stopInScreening_ctx .., .ramped (.inr hx) rfl _ _⟩

theorem screenAxis_state (req : Option Int) (synthesised : Bool) :
    ∃ c', (screenAxis x req synthesised s).ctx = tset s.ctx x c' ∧ ScreenedState s x c' := by
  have hkept (o : ScreenOutcome) : ScreenedState s x ((requested req (ctxOf s x)).withOutcome o) := .of_state rfl
  unfold screenAxis
  dsimp only
  split
  next hstopping _ =>
    exact ⟨_, setCtx_ctx .., ScreenedState.ramped (c := requested req (ctxOf s x)) (.inl hstopping) hstopping _ _⟩
  next hheld _ _ =>
    split
    next r => exact screenHeld_state _ _ r rfl hheld
    next => exact ⟨_, setCtx_ctx .., hkept .idle⟩
  next htracking _ _ =>
    split
    next r => exact screenTracking_state _ _ r rfl htracking
    next => exact ⟨_, stopInScreening_ctx .., .ramped (.inr htracking) rfl _ _⟩
  next => exact ⟨ctxOf s x, by rw [ctxOf, tset_tget], .of_state rfl⟩
  next => exact ⟨_, setCtx_ctx .., hkept .idle⟩

theorem takeConsoleRecord_state (r : ConsoleRecord) (e : Screening) (s : State) :
    ∃ x c', (takeConsoleRecord r e s).ctx = tset s.ctx x c' ∧ ScreenedState s x c' := by
  have hsame (x : Axis) : ∃ x c', s.ctx = tset s.ctx x c' ∧ ScreenedState s x c' :=
    ⟨x, ctxOf s x, by rw [ctxOf, tset_tget], .of_state rfl⟩
  unfold takeConsoleRecord
  split
  next => exact hsame 0
  next x _ =>
    split
    next => exact hsame x
    next =>
      split
      next => exact hsame x
      next => exact ⟨x, screenAxis_state _ _⟩

end

/-! ## The tare in flight (R132 to R136) -/

theorem abortTare_tare (reason : TareAbort) (s : State) : (abortTare reason s).tare = none := by
  unfold abortTare
  split
  next h => exact h
  next => rfl

/-- A tare that is still in flight when the engine has been informed was so before, and its axis is PARKED (R36, R136). -/
theorem informTare_tare {s : State} {a : Tare} (h : (informTare s).tare = some a) :
    s.tare = some a ∧ (ctxOf s a.axis).state = .parked := by
  unfold informTare at h
  split at h
  next hnone => rw [hnone] at h; nomatch h
  next b hb =>
    split at h
    next hparked =>
      obtain rfl : b = a := Option.some.inj (hb.symm.trans h)
      exact ⟨hb, hparked⟩
    next => rw [abortTare_tare] at h; nomatch h

namespace TareLawful
variable {s t : State}

/-- No tare in flight. -/
theorem of_none (h : t.tare = none) : TareLawful t := fun a ha => by rw [h] at ha; nomatch ha

theorem of_kept (h : TareLawful s) (htare : ∀ a, t.tare = some a → s.tare = some a ∧ (ctxOf t a.axis).state = .parked ∧
      bodyOf t a.axis = bodyOf s a.axis) (hmode : t.req.mode = s.req.mode) : TareLawful t := by
  intro a ha
  obtain ⟨hs, hparked, hbody⟩ := htare a ha
  obtain ⟨hcommission, -, hload, hvalues⟩ := h a hs
  exact ⟨hmode.trans hcommission, hparked, hbody ▸ hload, hvalues⟩

theorem of_states (h : TareLawful s) (hstates : ∀ x, (ctxOf s x).state = .parked → (ctxOf t x).state = .parked)
    (htare : t.tare = s.tare) (haxes : t.axisTab = s.axisTab) (hmode : t.req.mode = s.req.mode) : TareLawful t :=
  h.of_kept (fun a ha => ⟨htare ▸ ha, hstates _ (h a (htare ▸ ha)).2.1, bodyOf_congr haxes _⟩) hmode

theorem of_same (h : TareLawful s) (hctx : t.ctx = s.ctx) (htare : t.tare = s.tare) (haxes : t.axisTab = s.axisTab)
    (hmode : t.req.mode = s.req.mode) : TareLawful t :=
  h.of_states (fun x hx => by rw [ctxOf_congr hctx]; exact hx) htare haxes hmode

theorem update (h : TareLawful s) {x : Axis} {c : AxisCtx} (hc : (ctxOf s x).state = .parked → c.state = .parked)
    (hctx : t.ctx = tset s.ctx x c) (htare : t.tare = s.tare) (haxes : t.axisTab = s.axisTab)
    (hmode : t.req.mode = s.req.mode) : TareLawful t := by
  refine h.of_states (fun y hy => ?_) htare haxes hmode
  rw [ctxOf, hctx, tget_tset]
  split
  next hyx => exact hc (hyx ▸ hy)
  next => exact hy

theorem not_underTare {x : Axis} (h : underTare s x = false) {a : Tare} (ha : s.tare = some a) : a.axis ≠ x := by
  rw [underTare, ha] at h
  simpa using h

/-- A write of an axis that is not under tare. -/
theorem setAxis (h : TareLawful s) {x : Axis} {v : AxisEntry} {c : AxisCtx} (hfree : underTare s x = false)
    (hctx : t.ctx = tset s.ctx x c) (htare : t.tare = s.tare) (haxes : t.axisTab = tset s.axisTab x v)
    (hmode : t.req.mode = s.req.mode) : TareLawful t := by
  refine h.of_kept (fun a ha => ?_) hmode
  rw [htare] at ha
  have hx := not_underTare hfree ha
  rw [ctxOf, bodyOf, hctx, haxes, tget_tset_other _ _ hx, tget_tset_other _ _ hx]
  exact ⟨ha, (h a ha).2.1, rfl⟩

theorem touch {raw : Word16} (h : TareLawful s) (htouch : Touch raw.toInt s t) : TareLawful t := by
  cases htouch with
  | quiet => exact h
  | context x c hstate => exact h.update (fun hx => hstate.trans hx) (setCtx_ctx ..) rfl rfl rfl
  | fault x f =>
    refine h.of_kept (fun a ha => ?_) (by simp)
    obtain ⟨htare, hparked⟩ := informTare_tare (s := Machine.raiseAll _ (setCtx x _ s)) ha
    refine ⟨by simpa using htare, ?_, bodyOf_congr (by simp) _⟩
    rw [takeFault, ctxOf_congr (informTare_ctx _)]
    exact hparked
  | learn x p => exact h.update (fun _ => rfl) (setCtx_ctx ..) rfl rfl rfl
  | stop x k =>
    refine h.update (fun hx => ?_) (stopBetween_ctx ..) (by simp) (by simp) (by simp)
    rw [AxisCtx.stoppedBetween, if_neg (by rw [hx]; nofun)]
    exact hx
  | sample a ha hcount =>
    have hlowest := BitVec.le_two_mul_toInt (x := raw)
    have hlargest := BitVec.two_mul_toInt_lt (x := raw)
    obtain ⟨hcommission, hparked, hload, -, -, hlow, hhigh⟩ := h a ha
    rintro _ ⟨⟩
    refine ⟨hcommission, hparked, hload, Nat.le_of_lt_succ hcount, by simp, ?_, ?_⟩
    · push_cast
      norm_num at hlowest
      omega
    · push_cast
      norm_num at hlargest
      omega
  | complete => exact of_none rfl

theorem touched {raw : Word16} (h : TareLawful s) (ht : Touched raw.toInt s t) : TareLawful t := by
  induction ht with
  | refl => exact h
  | tail _ htouch ih => exact ih.touch htouch

theorem blockStep (h : TareLawful s) {c : Instr} (hstep : BlockStep s c t) : TareLawful t := by
  cases hstep with
  | reset => exact of_none (by simp [resetOf, State.reset])
  | routed _ port f => exact h.of_same (by simp) (by simp) (by simp) ((route_mode ..).trans (by simp))
  | routedAt _ moment port f => exact h.of_same (by simp) (by simp) (by simp) ((route_mode ..).trans (by simp))
  | record e r rest =>
    obtain ⟨x, c', hctx, hstate⟩ := takeConsoleRecord_state r { e with todo := rest } s
    exact h.update hstate.parked hctx (by simp) (by simp) (by simp)
  | screened e x =>
    obtain ⟨c', hctx, hstate⟩ := screenAxis_state (s := s) (x := x) none e.synthesised
    exact h.update hstate.parked hctx (by simp) (by simp) (by simp)
  | placed e r rest =>
    exact (h.touched (raw := 0) (Touched.judgeAppend (raw := (0 : Word16).toInt) .refl e.seq r)).of_same rfl rfl rfl rfl
  | feedback r rest more => exact h.touched (.takeNextFeedback r rest more)
  | reportBuilt => exact h.of_same (by simp) (by simp) (by simp) (by simp [buildReport])
  | passed | downSent | upSent | reportSent => exact h.of_same rfl rfl rfl rfl
  | nothing | discarded | deadline | emitted | rawSame | rawChanged | settled | reportDue =>
    exact h.of_same (by simp) (by simp) (by simp) (by simp)

theorem halted_parked {c : AxisCtx} (h : c.state = .parked) : c.halted.state = .parked := by
  rw [halted_of_other] <;> simp [h]

theorem accepts (h : TareLawful s) {c : Instr} (haccept : Accepts s c t) : TareLawful t := by
  cases haccept with
  | mode => exact of_none (abortTare_tare ..)
  | halt axes =>
    refine h.of_states (fun x hx => ?_) (by simp) (by simp) (by simp)
    rw [ctxOf_congr (raiseAll_same _ _).2.2.2.2.2.2.2.2.1, ctxOf_mapCtx]
    split
    next => exact halted_parked hx
    next => exact hx
  | clearFault x hstate => exact h.update (fun hx => nomatch hstate.symm.trans hx) (setCtx_ctx ..) rfl rfl rfl
  | restart => exact of_none (by simp [restartOwners])
  | putAxis x b _ _ hfree => exact h.setAxis hfree rfl rfl rfl rfl
  | eraseAxis x _ hfree => exact h.setAxis hfree rfl rfl rfl rfl
  | untare x _ hfree => exact h.setAxis hfree rfl rfl rfl rfl
  | lockAxis _ flag x =>
    refine h.of_kept (fun a ha => ⟨ha, (h a ha).2.1, ?_⟩) rfl
    rw [bodyOf, setAxisEntry_axisTab, tget_tset]
    split
    next hx => rw [hx]; rfl
    next => rfl
  | putSettings r => exact h.of_states (fun x hx => by rw [writeSettings, ctxOf_mapCtx]; exact hx) rfl rfl rfl
  | tare x hload hstate _ hmode =>
    rintro _ ⟨⟩
    obtain ⟨l, hl⟩ := Option.ne_none_iff_exists'.mp hload
    obtain ⟨b, hb, hbl⟩ := Option.bind_eq_some_iff.mp hl
    exact ⟨hmode, hstate, ⟨b, l, hb, hbl⟩, by simp, by simp, by simp, by simp⟩
  | take g =>
    refine h.of_kept (fun a ha => ?_) (by simp)
    obtain ⟨htare, hparked⟩ := informTare_tare ha
    exact ⟨by simpa using htare, by rw [ctxOf_congr (informTare_ctx _)]; exact hparked, bodyOf_congr (by simp) _⟩
  | putLine | eraseLine => exact h.of_same (by simp) (by simp) (by simp) (by simp)
  | read | setMask | putPair | erasePair | lockPair | lockLine | stage | drop => exact h.of_same rfl rfl rfl rfl

theorem exec (h : TareLawful s) {c : Instr} (hexec : exec c s = .next t) : TareLawful t :=
  exec_ind hexec h (fun _ => h.blockStep) (fun _ _ => h) (fun _ _ _ _ hu => hu) (fun _ _ hu => hu)
    (fun rest more _ => TareLawful.accepts (s := withoutFront rest more s) h)

theorem step (h : TareLawful s) (hstep : step s = .next t) : TareLawful t :=
  step_ind hstep (fun _ => h) (fun _ => h) fun _ q => TareLawful.exec (s := { s with pending := q }) h

end TareLawful

/-! ## The cue slots (R24, R98) -/

theorem inActive_iff {s : State} {x : Axis} : inActive s x = true ↔ ∃ g, s.active = some g ∧ x ∈ g.axes := by
  unfold inActive
  split
  next h => simp [h]
  next g h => simp [h]

namespace GroupsLawful
variable {s t : State}

theorem slot_of_states {g : Option CueGroup} (h : GroupLawful s g)
    (hstates : ∀ x, (ctxOf t x).state = .unconfigured → (ctxOf s x).state = .unconfigured) : GroupLawful t g := by
  intro k hk
  obtain ⟨hascending, hconfigured⟩ := h k hk
  exact ⟨hascending, fun x hx hstate => hconfigured x hx (hstates x hstate)⟩

theorem of_states (h : GroupsLawful s)
    (hconfigured : ∀ x, (ctxOf t x).state = .unconfigured → (ctxOf s x).state = .unconfigured)
    (htracking : ∀ x, (ctxOf t x).state = .tracking → (ctxOf s x).state = .tracking ∨ inActive s x = true)
    (hactive : t.active = s.active) (hstaged : t.staged = s.staged) : GroupsLawful t := by
  obtain ⟨hslot, hstage, htrack⟩ := h
  rw [GroupsLawful, hactive, hstaged]
  refine ⟨slot_of_states hslot hconfigured, slot_of_states hstage hconfigured, fun x hx => ?_⟩
  rw [inActive, hactive]
  exact (htracking x hx).elim (htrack x) id

theorem of_same (h : GroupsLawful s) (hctx : t.ctx = s.ctx) (hactive : t.active = s.active) (hstaged : t.staged = s.staged) :
    GroupsLawful t :=
  h.of_states (fun x hx => by rwa [ctxOf_congr hctx] at hx) (fun x hx => .inl (by rwa [ctxOf_congr hctx] at hx)) hactive hstaged

theorem update (h : GroupsLawful s) {x : Axis} {c : AxisCtx}
    (hconfigured : c.state = .unconfigured → (ctxOf s x).state = .unconfigured)
    (htracking : c.state = .tracking → (ctxOf s x).state = .tracking ∨ inActive s x = true)
    (hctx : t.ctx = tset s.ctx x c) (hactive : t.active = s.active) (hstaged : t.staged = s.staged) : GroupsLawful t := by
  have hread (y : Axis) : ctxOf t y = if y = x then c else ctxOf s y := by rw [ctxOf, hctx, tget_tset]; rfl
  refine h.of_states (fun y hy => ?_) (fun y hy => ?_) hactive hstaged <;> rw [hread] at hy <;> split at hy
  next hyx => exact hyx ▸ hconfigured hy
  next => exact hy
  next hyx => exact hyx ▸ htracking hy
  next => exact .inl hy

theorem touch {raw : Int} (h : GroupsLawful s) (htouch : Touch raw s t) : GroupsLawful t := by
  cases htouch with
  | quiet | sample => exact h
  | context x c hstate => exact h.update (fun hc => hstate.symm.trans hc) (fun hc => .inl (hstate.symm.trans hc)) (setCtx_ctx ..) rfl rfl
  | fault x f =>
    by_cases hstate : (ctxOf s x).state = .unconfigured
    · refine h.update (fun _ => hstate) (fun hc => ?_) (takeFault_ctx ..) (by simp) (by simp)
      rw [AxisCtx.takeFault, hstate] at hc
      exact .inl (hstate ▸ hc)
    · have hfaulted := takeFault_faulted f (ctxOf s x) hstate
      exact h.update (fun hc => nomatch hfaulted.symm.trans hc) (fun hc => nomatch hfaulted.symm.trans hc) (takeFault_ctx ..)
        (by simp) (by simp)
  | learn x p => exact h.update (by simp [AxisCtx.toLocated]) (by simp [AxisCtx.toLocated]) (setCtx_ctx ..) rfl rfl
  | stop x k =>
    refine h.update ?_ ?_ (stopBetween_ctx ..) (by simp) (by simp) <;> rw [AxisCtx.stoppedBetween] <;> split
    · nofun
    · exact id
    · nofun
    · exact .inl
  | complete x sum =>
    exact h.update (x := x) (c := (ctxOf s x).emptyRing) id .inl rfl rfl rfl

theorem touched {raw : Int} (h : GroupsLawful s) (ht : Touched raw s t) : GroupsLawful t := by
  induction ht with
  | refl => exact h
  | tail _ htouch ih => exact ih.touch htouch

theorem reset_lawful : GroupsLawful State.reset := by
  have hread (x : Axis) : ctxOf State.reset x = AxisCtx.cleared := tget_replicate _ _
  refine ⟨nofun, nofun, fun x hx => ?_⟩
  rw [hread] at hx
  nomatch hx

theorem blockStep (h : GroupsLawful s) {c : Instr} (hstep : BlockStep s c t) : GroupsLawful t := by
  cases hstep with
  | reset => exact reset_lawful.of_same (by simp [resetOf]) (by simp [resetOf]) (by simp [resetOf])
  | record e r rest =>
    obtain ⟨x, c', hctx, hstate⟩ := takeConsoleRecord_state r { e with todo := rest } s
    exact h.update hstate.configured hstate.tracking hctx (by simp) (by simp)
  | screened e x =>
    obtain ⟨c', hctx, hstate⟩ := screenAxis_state (s := s) (x := x) none e.synthesised
    exact h.update hstate.configured hstate.tracking hctx (by simp) (by simp)
  | placed e r rest => exact (h.touched (Touched.judgeAppend (raw := 0) .refl e.seq r)).of_same rfl rfl rfl
  | feedback r rest more => exact h.touched (.takeNextFeedback r rest more)
  | passed | downSent | upSent => exact h.of_same rfl rfl rfl
  | nothing | discarded | routed | routedAt | deadline | emitted | rawSame | rawChanged | settled | reportDue | reportBuilt
  | reportSent => exact h.of_same (by simp) (by simp) (by simp)

/-! ### The accepted requests -/

theorem restarted (s : State) : GroupsLawful (restartOwners s) := by
  refine ⟨nofun, nofun, fun x hx => ?_⟩
  have hread : ctxOf (restartOwners s) x = (ctxOf s x).restarted := by simp [restartOwners, ctxOf]
  rw [hread, AxisCtx.restarted] at hx
  split at hx
  next hstate => nomatch hstate.symm.trans hx
  next => nomatch hx

theorem without_lawful {g : Option CueGroup} (h : GroupLawful s g) {x : Axis}
    (hstates : ∀ y, y ≠ x → (ctxOf t y).state = (ctxOf s y).state) : GroupLawful t (g.map (CueGroup.without x)) := by
  intro k hk
  obtain ⟨k', hk', rfl⟩ := Option.map_eq_some_iff.mp hk
  obtain ⟨hascending, hconfigured⟩ := h k' hk'
  refine ⟨hascending.filter _, fun y hy => ?_⟩
  obtain ⟨hy, hne⟩ := List.mem_filter.mp hy
  rw [hstates y (of_decide_eq_true hne)]
  exact hconfigured y hy

theorem eraseAxis (h : GroupsLawful s) (x : Axis) : GroupsLawful (eraseAxis x s) := by
  obtain ⟨hslot, hstage, htrack⟩ := h
  have hread (y : Axis) : ctxOf (Machine.eraseAxis x s) y = if y = x then AxisCtx.cleared else ctxOf s y :=
    ctxOf_setCtx x y AxisCtx.cleared s
  have hothers (y : Axis) (hy : y ≠ x) : (ctxOf (Machine.eraseAxis x s) y).state = (ctxOf s y).state := by
    rw [hread, if_neg hy]
  refine ⟨without_lawful hslot hothers, without_lawful hstage hothers, fun y hy => ?_⟩
  rw [hread] at hy
  split at hy
  next => nomatch hy
  next hne =>
    obtain ⟨g, hg, hmem⟩ := inActive_iff.mp (htrack y hy)
    refine inActive_iff.mpr ⟨g.without x, ?_, List.mem_filter.mpr ⟨hmem, decide_eq_true hne⟩⟩
    exact congrArg (Option.map (CueGroup.without x)) hg

theorem handover_configured {n : Nat} {member : Bool} {c : AxisCtx} (h : (c.handover n member).state = .unconfigured) :
    c.state = .unconfigured := by
  unfold AxisCtx.handover at h
  split at h
  next => nomatch h
  next => exact h
  next => nomatch h
  next => nomatch h
  next => exact h
  next => exact h
  next => exact h

/-- Only a member of the new active group goes on tracking (R104). -/
theorem handover_tracking {n : Nat} {member : Bool} {c : AxisCtx} (h : (c.handover n member).state = .tracking) :
    member = true := by
  cases member with
  | true => rfl
  | false => cases hstate : c.state <;> simp [AxisCtx.handover, AxisCtx.toParked, AxisCtx.stopped, hstate] at h

theorem takeGroup (h : GroupsLawful s) {g : CueGroup} (hstaged : s.staged = some g) (hctx : ∀ x, ctxOf t x =
      (ctxOf s x).handover s.settings.brakeSettle (g.axes.contains x)) (hactive : t.active = some g)
    (hempty : t.staged = none) : GroupsLawful t := by
  obtain ⟨-, hstage, -⟩ := h
  rw [hstaged] at hstage
  rw [GroupsLawful, hactive, hempty]
  refine ⟨slot_of_states hstage fun x hx => ?_, nofun, fun x hx => ?_⟩
  · rw [hctx] at hx
    exact handover_configured hx
  · rw [hctx] at hx
    exact inActive_iff.mpr ⟨g, hactive, by simpa using handover_tracking hx⟩

theorem members_ascending {l : AxisList} {axes : AxisSet} (h : l.toSet = some axes) : axes.members.Pairwise (· < ·) := by
  cases axes with
  | all => exact List.pairwise_lt_finRange 128
  | list xs => exact toSet_ascending h

theorem stageRefusal_eq_none {x : Axis} (h : stageRefusal s x = none) : (ctxOf s x).state ≠ .unconfigured := by
  intro hstate
  rw [stageRefusal, hstate] at h
  nomatch h

theorem halted_state (c : AxisCtx) : c.halted.state = c.state ∨ c.halted.state = .stopping := by
  unfold AxisCtx.halted
  split
  next => exact .inr rfl
  next => exact .inl rfl
  next => exact .inl rfl
  next => exact .inl rfl

theorem accepts (h : GroupsLawful s) {c : Instr} (haccept : Accepts s c t) : GroupsLawful t := by
  cases haccept with
  | halt axes =>
    have hread (x : Axis) : ctxOf (Machine.raiseAll ((tzip s.ctx).filterMap (haltedEvent axes))
        (mapCtx (fun a c => if axes.covers a then c.halted else c) s)) x =
        if axes.covers x then (ctxOf s x).halted else ctxOf s x := by
      rw [ctxOf_congr (raiseAll_same _ _).2.2.2.2.2.2.2.2.1, ctxOf_mapCtx]
    refine h.of_states (fun x hx => ?_) (fun x hx => ?_) (by simp) (by simp) <;> rw [hread] at hx <;> split at hx
    next => exact (halted_state _).elim (fun hs => hs.symm.trans hx) (fun hs => nomatch hs.symm.trans hx)
    next => exact hx
    next => exact (halted_state _).elim (fun hs => .inl (hs.symm.trans hx)) (fun hs => nomatch hs.symm.trans hx)
    next => exact .inl hx
  | clearFault x => exact h.update (by simp [AxisCtx.locating]) (by simp [AxisCtx.locating]) (setCtx_ctx ..) rfl rfl
  | restart => exact (restarted s).of_same (by simp) (by simp) (by simp)
  | putAxis x b =>
    refine h.update (x := x) (c := (ctxOf s x).rewritten) ?_ ?_ rfl rfl rfl <;> rw [AxisCtx.rewritten] <;> split
    · nofun
    · exact id
    · nofun
    · exact .inl
  | eraseAxis x => exact h.eraseAxis x
  | untare x => exact h.update (x := x) (c := (ctxOf s x).untared) id .inl rfl rfl rfl
  | putSettings r =>
    refine h.of_states (fun x hx => ?_) (fun x hx => .inl ?_) rfl rfl <;> rw [writeSettings, ctxOf_mapCtx] at hx <;> exact hx
  | stage l cue axes haxes _ hstates =>
    obtain ⟨hslot, -, htrack⟩ := h
    refine ⟨hslot, ?_, htrack⟩
    rintro _ ⟨⟩
    exact ⟨members_ascending haxes, fun x hx => stageRefusal_eq_none (List.findSome?_eq_none_iff.mp hstates x hx)⟩
  | take g hstaged =>
    refine h.takeGroup hstaged (fun x => ?_) (by simp) (by simp)
    rw [ctxOf_congr (informTare_ctx _), ctxOf_congr (raiseAll_same _ _).2.2.2.2.2.2.2.2.1, ctxOf_mapCtx]
    rfl
  | drop => exact ⟨h.1, nofun, h.2.2⟩
  | mode | putLine | eraseLine => exact h.of_same (by simp) (by simp) (by simp)
  | read | setMask | putPair | erasePair | lockAxis | lockPair | lockLine | tare => exact h.of_same rfl rfl rfl

theorem exec (h : GroupsLawful s) {c : Instr} (hexec : exec c s = .next t) : GroupsLawful t :=
  exec_ind hexec h (fun _ => h.blockStep) (fun _ _ => h) (fun _ _ _ _ hu => hu) (fun _ _ hu => hu)
    (fun rest more _ => GroupsLawful.accepts (s := withoutFront rest more s) h)

theorem step (h : GroupsLawful s) (hstep : step s = .next t) : GroupsLawful t :=
  step_ind hstep (fun _ => h) (fun _ => h) fun _ q => GroupsLawful.exec (s := { s with pending := q }) h

end GroupsLawful
end Sys2Proof.Machine
end

section
/-! SUPPORT. The lines that settle together, the reset state, and the laws of the blocks through every step (R39 to R41, R85 to R87,
R137 to R141, R156 to R161, R174 to R178). -/

namespace Sys2Proof.Machine

/-! ## The lines that settle together (R85 to R87) -/

theorem raiseAll_eq (es : List Event) (s : State) : raiseAll es s = { s with ev := es.foldl (fun u e => u.raise e) s.ev } := by
  induction es generalizing s with
  | nil => rfl
  | cons e es ih => exact ih (raise e s)

/-- A line settled at its pending level (R85). -/
def LineState.settle (x : LineState) : LineState :=
  match x.pending with
  | none => x
  | some level => { x with settled := .known level, pending := none }

/-- The event of a line that settles at its pending level (R88). -/
def settleEvent (s : State) (l : Line) : Option Event :=
  (tget s.lines l).pending.map (fun level => .interlockChanged l level (assertionOf (tget s.lineTab l) level))

/-- The event of a line that settles now, when its held time has reached its settle time (R86). -/
def dueEvent (s : State) (l : Line) : Option Event := if settleDue s l then settleEvent s l else none

/-- The lines of `ls` that are due settled together, their events raised in the order of `ls` (R87). -/
def settledAmong (ls : List Line) (s : State) : State :=
  { s with
    lines := tmap (fun l x => if l ∈ ls ∧ settleDue s l then x.settle else x) s.lines
    ev := (ls.filterMap (dueEvent s)).foldl (fun u e => u.raise e) s.ev }

theorem settleDue_congr {s t : State} {l : Line} (hline : tget t.lines l = tget s.lines l) (htab : t.lineTab = s.lineTab)
    (hnow : t.now = s.now) : settleDue t l = settleDue s l := by
  unfold settleDue settleTicks
  rw [hline, htab, hnow]

theorem dueEvent_congr {s t : State} {l : Line} (hline : tget t.lines l = tget s.lines l) (htab : t.lineTab = s.lineTab)
    (hnow : t.now = s.now) : dueEvent t l = dueEvent s l := by
  rw [dueEvent, dueEvent, settleDue_congr hline htab hnow, settleEvent, settleEvent, hline, htab]

theorem settleLine_eq (l : Line) (s : State) : settleLine l s = { s with
    lines := tset s.lines l (tget s.lines l).settle
    ev := (settleEvent s l).toList.foldl (fun u e => u.raise e) s.ev } := by
  cases h : (tget s.lines l).pending with
  | none => simp [settleLine, LineState.settle, settleEvent, h]
  | some level => simp [settleLine, LineState.settle, settleEvent, h, raise]

theorem settleIfDue_eq (l : Line) (s : State) : settleIfDue l s = { s with
    lines := tset s.lines l (if settleDue s l then (tget s.lines l).settle else tget s.lines l)
    ev := (dueEvent s l).toList.foldl (fun u e => u.raise e) s.ev } := by
  unfold settleIfDue dueEvent
  split
  next => exact settleLine_eq l s
  next => simp

theorem foldl_settleIfDue {ls : List Line} (hdistinct : ls.Nodup) (s : State) :
    ls.foldl (fun t l => settleIfDue l t) s = settledAmong ls s := by
  induction ls generalizing s with
  | nil =>
    have hlines : tmap (fun _ x => x) s.lines = s.lines := table_ext fun l => tget_tmap ..
    simp [settledAmong, hlines]
  | cons l ls ih =>
    obtain ⟨hl, hdistinct⟩ := List.nodup_cons.mp hdistinct
    have hline {k : Line} (hk : k ≠ l) : tget (settleIfDue l s).lines k = tget s.lines k := by
      rw [settleIfDue_eq, tget_tset_other _ _ hk]
    have hevents : ls.filterMap (dueEvent (settleIfDue l s)) = ls.filterMap (dueEvent s) :=
      List.filterMap_congr fun k hk => dueEvent_congr (hline fun hkl => hl (hkl ▸ hk)) (by simp) (by simp)
    have hlines : tmap (fun k x => if k ∈ ls ∧ settleDue (settleIfDue l s) k then x.settle else x) (settleIfDue l s).lines =
        tmap (fun k x => if k ∈ l :: ls ∧ settleDue s k then x.settle else x) s.lines := by
      refine table_ext fun k => ?_
      rw [tget_tmap, tget_tmap]
      by_cases hk : k = l
      · subst hk
        rw [if_neg fun h => hl h.1, settleIfDue_eq, tget_tset_same]
        simp
      · rw [hline hk, settleDue_congr (hline hk) (by simp) (by simp)]
        simp [hk]
    rw [List.foldl_cons, ih hdistinct, settledAmong, hevents, hlines, settledAmong, List.filterMap_cons, settleIfDue_eq]
    cases dueEvent s l <;> rfl

/-- The lines that are due settle together, in ascending number (R87). -/
theorem settleAllDue_eq (s : State) : settleAllDue s = { s with
    lines := tmap (fun l x => if settleDue s l then x.settle else x) s.lines
    ev := (allLines.filterMap (dueEvent s)).foldl (fun u e => u.raise e) s.ev } := by
  rw [settleAllDue, foldl_settleIfDue (ls := allLines) (List.nodup_finRange 16), settledAmong]
  simp only [allLines, List.mem_finRange, true_and]

/-! ## Events of one class in a queue with room (R178) -/

theorem insertByClass_of_ranks {e : QueuedEvent} {q : List QueuedEvent} (h : ∀ y ∈ q, y.rank ≤ e.rank) :
    insertByClass e q = q ++ [e] := by
  induction q with
  | nil => rfl
  | cons y q ih =>
    obtain ⟨hy, hq⟩ := List.forall_mem_cons.mp h
    rw [insertByClass, if_pos hy, ih hq, List.cons_append]

/-- Unmasked events of one class join a queue that holds no later class, as long as it has room (R175, R178). -/
theorem foldl_raise_of_class {c : EventClass} {es : List Event} {u : EventUnit} (hclass : ∀ e ∈ es, e.cls = c)
    (hmask : u.masks c = false) (hroom : u.queue.length + es.length ≤ 32) (hranks : ∀ y ∈ u.queue, y.rank ≤ c.number) :
    es.foldl (fun v e => v.raise e) u = { u with queue := u.queue ++ es.map (fun e => ⟨e, 1⟩) } := by
  induction es generalizing u with
  | nil => simp
  | cons e es ih =>
    obtain ⟨he, hes⟩ := List.forall_mem_cons.mp hclass
    rw [List.length_cons] at hroom
    have hjoined : u.raise e = { u with queue := u.queue ++ [⟨e, 1⟩] } := by
      have hlt : u.queue.length < Config.eventRoom := by
        simp only [Config.eventRoom]
        omega
      rw [EventUnit.raise, he, hmask, if_neg Bool.false_ne_true, EventUnit.offer, if_pos hlt, insertByClass_of_ranks]
      exact fun y hy => (hranks y hy).trans_eq (congrArg EventClass.number he.symm)
    rw [List.foldl_cons, hjoined, ih (u := { u with queue := u.queue ++ [⟨e, 1⟩] }) hes hmask]
    · simp
    · simp only [List.length_append, List.length_cons, List.length_nil]
      omega
    · simp only [List.mem_append, List.mem_singleton]
      rintro y (hy | rfl)
      · exact hranks y hy
      · exact (congrArg EventClass.number he).le

/-! ## The power-on reset (R41, R87) -/

/-- After the reset every line is due: it is UNSETTLED with a pending level, and has no settle time (R86, R87). -/
theorem settleDue_resetOf (s : State) (l : Line) : settleDue (resetOf s) l = true := by
  simp [settleDue, settleTicks, resetOf, State.reset, LineState.unsettledAt]

theorem dueEvent_resetOf (s : State) (l : Line) :
    dueEvent (resetOf s) l = some (.interlockChanged l (tget s.lines l).raw .noEntry) := by
  rw [dueEvent, settleDue_resetOf, if_pos rfl]
  simp [settleEvent, resetOf, State.reset, LineState.unsettledAt, assertionOf]

/-- Settles O54: every line is due as the reset ends, so all of them settle, and their sixteen events fit the empty queue. -/
theorem powerOnResetValues : Obligations.PowerOnResetValues := by
  intro s
  change Host.Outcome.next (settleAllDue (resetOf s)) = _
  have hevents : allLines.filterMap (dueEvent (resetOf s)) =
      allLines.map (fun l => .interlockChanged l (tget s.lines l).raw .noEntry) := by
    rw [funext (dueEvent_resetOf s)]
    exact List.filterMap_eq_map ▸ rfl
  have hlines : tmap (fun l x => if settleDue (resetOf s) l then x.settle else x) (resetOf s).lines =
      tmap (fun _ x => { raw := x.raw, settled := .known x.raw, pending := none, since := 0 }) s.lines := by
    refine table_ext fun l => ?_
    rw [tget_tmap, settleDue_resetOf, if_pos rfl]
    simp [resetOf, LineState.unsettledAt, LineState.settle]
  have hqueue := foldl_raise_of_class (c := .input) (u := State.reset.ev)
    (es := allLines.map (fun l => .interlockChanged l (tget s.lines l).raw .noEntry)) (by simp [Event.cls]) rfl
    (by simp [State.reset, allLines]) (by simp [State.reset])
  rw [settleAllDue_eq, hevents, hlines]
  refine congrArg Host.Outcome.next ?_
  have hev : (resetOf s).ev = State.reset.ev := rfl
  rw [hev, hqueue, List.map_map]
  rfl

/-! ## The reset state -/

/-- Settles O55. -/
theorem resetStateIsLawful : Obligations.ResetStateIsLawful := by
  have hcontexts : ContextsSound State.reset := by
    intro x
    simp only [ctxOf, bodyOf, State.reset, tget_replicate]
    exact AxisCtx.sound_cleared
  obtain ⟨hlawful, hsteps, hlimits⟩ := (contextsSound_iff _).mp hcontexts
  exact {
    tables := TablesLawful.reset_lawful
    contexts := hlawful
    steps := hsteps
    limits := hlimits
    outputs := PinsFollow.reset_outputs
    groups := GroupsLawful.reset_lawful
    tare := TareLawful.of_none rfl
    lines := fun l => by
      rw [State.reset, tget_replicate]
      exact LinesLawful.unsettledAt_lawful _ _
    cadence := CadenceLawful.reset_lawful
    engine := nofun
    events := .of_empty rfl rfl
    answers := ⟨by decide, nofun⟩
    emitters := EmittersLawful.reset_lawful }

/-! ## The laws of the blocks through every step -/

/-- Settles O56: each law of a block is kept by every command. -/
theorem blocksStayLawful : Obligations.BlocksStayLawful := by
  intro s t hstep
  refine ⟨fun h => ?_, fun h => h.step hstep, fun h => h.step hstep, fun h => h.step hstep, fun h => h.step hstep,
    fun h => h.step hstep, fun h => h.step hstep, fun h => h.step hstep, fun h => h.step hstep⟩
  exact (pinsFollow_iff t).mp (((pinsFollow_iff s).mpr h).step hstep)

end Sys2Proof.Machine
end

section
/-! SUPPORT. Frames on the link: the frame that a port reads is the one whose bytes it has received, and the checks pass just when
the bytes are a frame of the layout (R150, R151, sections 10.6 to 10.8). -/

namespace Sys2Proof.Machine

/-! ## Fields determine their bytes (section 10.6) -/

theorem valueOf_cons (b : Byte) (bs : List Byte) : valueOf (b :: bs) = 256 ^ bs.length * b.toNat + valueOf bs := by
  have hone : valueOf [b] = b.toNat := by simp [valueOf]
  rw [← hone, ← valueOf_append]
  rfl

theorem valueOf_lt (bs : List Byte) : valueOf bs < 256 ^ bs.length := by
  induction bs with
  | nil => simp [valueOf]
  | cons b bs ih =>
    have hb : b.toNat + 1 ≤ 256 := b.isLt
    rw [valueOf_cons, List.length_cons, pow_succ]
    calc 256 ^ bs.length * b.toNat + valueOf bs < 256 ^ bs.length * b.toNat + 256 ^ bs.length := by omega
      _ = 256 ^ bs.length * (b.toNat + 1) := by ring
      _ ≤ 256 ^ bs.length * 256 := Nat.mul_le_mul_left _ hb

theorem valueOf_inj {a b : List Byte} (hlength : a.length = b.length) (h : valueOf a = valueOf b) : a = b := by
  induction a generalizing b with
  | nil => exact (List.length_eq_zero_iff.mp hlength.symm).symm
  | cons x xs ih =>
    cases b with
    | nil => nomatch hlength
    | cons y ys =>
      have hrest : xs.length = ys.length := Nat.succ.inj hlength
      rw [valueOf_cons, valueOf_cons, hrest] at h
      have hxs := valueOf_lt xs
      have hys := valueOf_lt ys
      rw [hrest] at hxs
      have hhead : x.toNat = y.toNat := by
        have hx := congrArg (· / 256 ^ ys.length) h
        simpa [Nat.mul_add_div, Nat.div_eq_of_lt hxs, Nat.div_eq_of_lt hys] using hx
      rw [hhead] at h
      rw [BitVec.eq_of_toNat_eq hhead, ih hrest (Nat.add_left_cancel h)]

/-- Fields spell one piece of bytes only. -/
theorem Spells.unique {fields : List (Nat × Int)} : ∀ {a b : List Byte}, Spells a fields → Spells b fields → a = b := by
  induction fields with
  | nil => exact fun ha hb => Eq.trans ha (Eq.symm hb)
  | cons f fs ih =>
    rintro a b ⟨halen, haval, harest⟩ ⟨hblen, hbval, hbrest⟩
    have hvalue : valueOf (a.take f.1) = valueOf (b.take f.1) := Int.ofNat.inj (haval.trans hbval.symm)
    have htake : a.take f.1 = b.take f.1 := valueOf_inj (by simp [halen, hblen]) hvalue
    rw [← List.take_append_drop f.1 a, ← List.take_append_drop f.1 b, htake, ih harest hbrest]

theorem bytes16_word16 (hi lo : Byte) : bytes16 (word16 hi lo) = [hi, lo] := by
  rw [bytes16, word16, BitVec.extractLsb'_append_eq_left, BitVec.extractLsb'_append_eq_right]

theorem valueOf_pair (hi lo : Byte) : valueOf [hi, lo] = (word16 hi lo).toNat := by
  rw [← bytes16_word16, valueOf_bytes16]

/-! ## A frame read from its bytes (R150) -/

/-- A port that has received the bytes of a frame judges its body (R150). -/
theorem readFrame_frameBytes (port : Port) (kind : Byte) (h : Header) {count : Nat} {body : List Byte}
    (hcount : count < 65536) (hbody : body.length < 65536) :
    readFrame port (frameBytes kind h count body) = readBody port kind h count body := by
  have hlen : (BitVec.ofNat 16 body.length).toNat = body.length := by rw [BitVec.toNat_ofNat]; exact Nat.mod_eq_of_lt hbody
  have hnum : (BitVec.ofNat 16 count).toNat = count := by rw [BitVec.toNat_ofNat]; exact Nat.mod_eq_of_lt hcount
  simp only [frameBytes, headerBytes, bytes16, List.cons_append, List.nil_append, readFrame, word16_bytes, hlen, hnum,
    List.take_left', List.drop_left', and_self, if_true]

/-- What a port takes from the bytes is the frame that they are (R150). -/
theorem readFrame_eq_some {port : Port} {bytes : List Byte} {f : Frame} (hread : readFrame port bytes = some f) :
    ∃ (kind : Byte) (h : Header) (count : Nat) (body : List Byte), count < 65536 ∧ body.length < 65536 ∧
      bytes = frameBytes kind h count body ∧ readBody port kind h count body = some f := by
  unfold readFrame at hread
  split at hread
  next k d sr fl s1 s0 c1 c0 l1 l0 rest =>
    dsimp only at hread
    split at hread
    next hcheck =>
      obtain ⟨hlen, hcrc⟩ := hcheck
      refine ⟨k, _, _, _, (word16 c1 c0).isLt, ?_, ?_, hread⟩
      · rw [hlen]
        exact (word16 l1 l0).isLt
      · rw [frameBytes, hlen, ← hcrc, headerBytes, BitVec.ofNat_toNat, BitVec.ofNat_toNat, BitVec.setWidth_eq, BitVec.setWidth_eq]
        simp [bytes16_word16, List.take_append_drop]
    next => nomatch hread
  next => nomatch hread

/-! ## Records and envelopes (R150, sections 10.7 and 10.8) -/

theorem readConsoleRecords_bytes (rs : List ConsoleRecord) :
    readConsoleRecords (rs.flatMap ConsoleRecord.bytes) = some rs := by
  induction rs with
  | nil => rfl
  | cons r rs ih => simp [ConsoleRecord.bytes, bytes32, readConsoleRecords, ih]

theorem readFeedbackRecords_bytes (rs : List FeedbackRecord) :
    readFeedbackRecords (rs.flatMap FeedbackRecord.bytes) = some rs := by
  induction rs with
  | nil => rfl
  | cons r rs ih => simp [FeedbackRecord.bytes, bytes16, bytes32, readFeedbackRecords, ih]

theorem readEnvelopes_bytes (es : List Envelope) (hbody : ∀ e ∈ es, e.body.length < 65536) :
    readEnvelopes es.length (es.flatMap Envelope.bytes) = some es := by
  induction es with
  | nil => rfl
  | cons e es ih =>
    obtain ⟨he, hes⟩ := List.forall_mem_cons.mp hbody
    have hlen : (BitVec.ofNat 16 e.body.length).toNat = e.body.length := by rw [BitVec.toNat_ofNat]; exact Nat.mod_eq_of_lt he
    simp [Envelope.bytes, bytes16, readEnvelopes, hlen, ih hes]

/-- Settles O7: the header and the check value are read back, and with them the body, record by record. -/
theorem framesReadBackAsWritten : Obligations.FramesReadBackAsWritten := by
  refine ⟨fun f hwf => ?_, fun port f hwf => ?_, fun port f hwf => ?_, fun port f hwf => ?_⟩
  · have hroom : f.records.length ≤ 128 := of_decide_eq_true hwf
    have hlength : (f.records.flatMap ConsoleRecord.bytes).length = 6 * f.records.length := by
      simp [List.length_flatMap, ConsoleRecord.bytes, mul_comm]
    rw [SetpointFrame.bytes, readFrame_frameBytes _ _ _ (by omega) (by omega)]
    simp [readBody, readConsoleRecords_bytes, hroom]
  · have hroom : f.records.length ≤ 128 := of_decide_eq_true hwf
    have hlength : (f.records.flatMap FeedbackRecord.bytes).length = 12 * f.records.length := by
      simp [List.length_flatMap, FeedbackRecord.bytes, mul_comm]
    rw [FeedbackFrame.bytes, readFrame_frameBytes _ _ _ (by omega) (by omega)]
    simp [readBody, readFeedbackRecords_bytes, hroom]
  · rw [ManageFrame.wf, Bool.and_eq_true, decide_eq_true_eq, decide_eq_true_eq] at hwf
    obtain ⟨hroom, hbody⟩ := hwf
    rw [ManageFrame.bytes, readFrame_frameBytes _ _ _ (by omega) hbody]
    have henvelopes : ∀ e ∈ f.requests, e.body.length < 65536 := by
      intro e he
      have hle : (Envelope.bytes e).length ≤ (f.requests.flatMap Envelope.bytes).length := by
        rw [List.length_flatMap]
        exact List.single_le_sum (by simp) _ (List.mem_map_of_mem he)
      simp only [Envelope.bytes, List.length_append, bytes16_length] at hle
      omega
    simp [readBody, readEnvelopes_bytes _ henvelopes, hroom]
  · simp only [DriveReport.wf, Bool.and_eq_true, decide_eq_true_eq] at hwf
    obtain ⟨⟨⟨hroom, hsummary⟩, hbody⟩, hfits⟩ := hwf
    rw [DriveReport.bytes, readFrame_frameBytes _ _ _ f.count.isLt hbody]
    simp [readBody, hroom, hsummary, hfits]

/-! ## The form of a body (R150, section 10.8) -/

theorem readConsoleRecords_length {body : List Byte} {rs : List ConsoleRecord} (h : readConsoleRecords body = some rs) :
    body.length = 6 * rs.length := by
  induction body using readConsoleRecords.induct generalizing rs with
  | case1 => cases h; rfl
  | case2 a f p3 p2 p1 p0 rest ih =>
    obtain ⟨rs', hrs', rfl⟩ := Option.map_eq_some_iff.mp h
    simp only [List.length_cons, ih hrs']
    omega
  | case3 body hnil hrecord =>
    rw [readConsoleRecords] at h
    · nomatch h
    · exact hnil
    · exact hrecord

theorem readFeedbackRecords_length {body : List Byte} {rs : List FeedbackRecord} (h : readFeedbackRecords body = some rs) :
    body.length = 12 * rs.length := by
  induction body using readFeedbackRecords.induct generalizing rs with
  | case1 => cases h; rfl
  | case2 a st k1 k0 p3 p2 p1 p0 l1 l0 c sp rest ih =>
    obtain ⟨rs', hrs', rfl⟩ := Option.map_eq_some_iff.mp h
    simp only [List.length_cons, ih hrs']
    omega
  | case3 body hnil hrecord =>
    rw [readFeedbackRecords] at h
    · nomatch h
    · exact hnil
    · exact hrecord

theorem exists_readConsoleRecords {n : Nat} {body : List Byte} (h : body.length = 6 * n) :
    ∃ rs, readConsoleRecords body = some rs ∧ rs.length = n := by
  induction n generalizing body with
  | zero => exact ⟨[], by rw [List.length_eq_zero_iff.mp h, readConsoleRecords], rfl⟩
  | succ n ih =>
    match body, h with
    | a :: f :: p3 :: p2 :: p1 :: p0 :: rest, h =>
      obtain ⟨rs, hrs, hlength⟩ := ih (body := rest) (by simp only [List.length_cons] at h; omega)
      exact ⟨_, by rw [readConsoleRecords, hrs, Option.map_some], by rw [List.length_cons, hlength]⟩

theorem exists_readFeedbackRecords {n : Nat} {body : List Byte} (h : body.length = 12 * n) :
    ∃ rs, readFeedbackRecords body = some rs ∧ rs.length = n := by
  induction n generalizing body with
  | zero => exact ⟨[], by rw [List.length_eq_zero_iff.mp h, readFeedbackRecords], rfl⟩
  | succ n ih =>
    match body, h with
    | a :: st :: k1 :: k0 :: p3 :: p2 :: p1 :: p0 :: l1 :: l0 :: c :: sp :: rest, h =>
      obtain ⟨rs, hrs, hlength⟩ := ih (body := rest) (by simp only [List.length_cons] at h; omega)
      exact ⟨_, by rw [readFeedbackRecords, hrs, Option.map_some], by rw [List.length_cons, hlength]⟩

/-- The bytes are `n` envelopes, one after another. -/
def MadeOf (fixed width n : Nat) (bs : List Byte) : Prop :=
  ∃ es : List (List Byte), es.length = n ∧ bs = es.flatten ∧ ∀ e ∈ es, IsEnvelope fixed width e

theorem madeOf_zero {fixed width : Nat} {bs : List Byte} : MadeOf fixed width 0 bs ↔ bs = [] := by
  constructor
  · rintro ⟨es, hlength, rfl, -⟩
    rw [List.length_eq_zero_iff.mp hlength]
    rfl
  · rintro rfl
    exact ⟨[], rfl, rfl, nofun⟩

theorem madeOf_succ {fixed width n : Nat} {bs : List Byte} : MadeOf fixed width (n + 1) bs ↔
    ∃ e rest, bs = e ++ rest ∧ IsEnvelope fixed width e ∧ MadeOf fixed width n rest := by
  constructor
  · rintro ⟨es, hlength, rfl, hes⟩
    cases es with
    | nil => nomatch hlength
    | cons e es =>
      obtain ⟨he, hes⟩ := List.forall_mem_cons.mp hes
      exact ⟨e, es.flatten, rfl, he, es, Nat.succ.inj hlength, rfl, hes⟩
  · rintro ⟨e, _, rfl, he, es, hlength, rfl, hes⟩
    exact ⟨e :: es, congrArg Nat.succ hlength, rfl, List.forall_mem_cons.mpr ⟨he, hes⟩⟩

/-- A request envelope at the front of some bytes (section 10.8). -/
theorem front_request {bs : List Byte} {P : List Byte → Prop} : (∃ e rest, bs = e ++ rest ∧ IsEnvelope 3 2 e ∧ P rest) ↔
    ∃ t1 t0 k l1 l0 tl, bs = t1 :: t0 :: k :: l1 :: l0 :: tl ∧ (word16 l1 l0).toNat ≤ tl.length ∧
      P (tl.drop (word16 l1 l0).toNat) := by
  constructor
  · rintro ⟨e, rest, rfl, ⟨hroom, hlength⟩, hrest⟩
    match e, hroom with
    | t1 :: t0 :: k :: l1 :: l0 :: b, _ =>
      have hb : b.length = (word16 l1 l0).toNat := by
        simp only [List.length_cons, List.drop_succ_cons, List.drop_zero, List.take_succ_cons, List.take_zero,
          valueOf_pair] at hlength
        omega
      refine ⟨t1, t0, k, l1, l0, b ++ rest, rfl, by rw [List.length_append]; omega, ?_⟩
      rw [← hb, List.drop_left]
      exact hrest
  · rintro ⟨t1, t0, k, l1, l0, tl, rfl, hroom, hrest⟩
    refine ⟨t1 :: t0 :: k :: l1 :: l0 :: tl.take (word16 l1 l0).toNat, _, by simp, ?_, hrest⟩
    simp [IsEnvelope, valueOf_pair, hroom]
    omega

/-- An answer envelope at the front of some bytes (section 10.8). -/
theorem front_answer {bs : List Byte} {P : List Byte → Prop} : (∃ e rest, bs = e ++ rest ∧ IsEnvelope 4 2 e ∧ P rest) ↔
    ∃ b0 b1 b2 b3 b4 b5 tl, bs = b0 :: b1 :: b2 :: b3 :: b4 :: b5 :: tl ∧ (word16 b4 b5).toNat ≤ tl.length ∧
      P (tl.drop (word16 b4 b5).toNat) := by
  constructor
  · rintro ⟨e, rest, rfl, ⟨hroom, hlength⟩, hrest⟩
    match e, hroom with
    | b0 :: b1 :: b2 :: b3 :: b4 :: b5 :: b, _ =>
      have hb : b.length = (word16 b4 b5).toNat := by
        simp only [List.length_cons, List.drop_succ_cons, List.drop_zero, List.take_succ_cons, List.take_zero,
          valueOf_pair] at hlength
        omega
      refine ⟨b0, b1, b2, b3, b4, b5, b ++ rest, rfl, by rw [List.length_append]; omega, ?_⟩
      rw [← hb, List.drop_left]
      exact hrest
  · rintro ⟨b0, b1, b2, b3, b4, b5, tl, rfl, hroom, hrest⟩
    refine ⟨b0 :: b1 :: b2 :: b3 :: b4 :: b5 :: tl.take (word16 b4 b5).toNat, _, by simp, ?_, hrest⟩
    simp [IsEnvelope, valueOf_pair, hroom]
    omega

/-- An event envelope at the front of some bytes (section 10.8). -/
theorem front_event {bs : List Byte} {P : List Byte → Prop} : (∃ e rest, bs = e ++ rest ∧ IsEnvelope 5 1 e ∧ P rest) ↔
    ∃ b0 b1 b2 b3 b4 b5 tl, bs = b0 :: b1 :: b2 :: b3 :: b4 :: b5 :: tl ∧ b5.toNat ≤ tl.length ∧ P (tl.drop b5.toNat) := by
  have hvalue (b : Byte) : valueOf [b] = b.toNat := by simp [valueOf]
  constructor
  · rintro ⟨e, rest, rfl, ⟨hroom, hlength⟩, hrest⟩
    match e, hroom with
    | b0 :: b1 :: b2 :: b3 :: b4 :: b5 :: b, _ =>
      have hb : b.length = b5.toNat := by
        simp only [List.length_cons, List.drop_succ_cons, List.drop_zero, List.take_succ_cons, List.take_zero, hvalue] at hlength
        omega
      refine ⟨b0, b1, b2, b3, b4, b5, b ++ rest, rfl, by rw [List.length_append]; omega, ?_⟩
      rw [← hb, List.drop_left]
      exact hrest
  · rintro ⟨b0, b1, b2, b3, b4, b5, tl, rfl, hroom, hrest⟩
    refine ⟨b0 :: b1 :: b2 :: b3 :: b4 :: b5 :: tl.take b5.toNat, _, by simp, ?_, hrest⟩
    simp [IsEnvelope, hvalue, hroom]
    omega

/-- A manage frame's body is read just when it is made of as many requests (R150). -/
theorem readEnvelopes_ne_none {n : Nat} {body : List Byte} : readEnvelopes n body ≠ none ↔ MadeOf 3 2 n body := by
  induction n generalizing body with
  | zero => cases body <;> simp [madeOf_zero, readEnvelopes]
  | succ n ih =>
    rw [madeOf_succ, front_request]
    constructor
    · intro h
      match body, h with
      | t1 :: t0 :: k :: l1 :: l0 :: rest, h =>
        rw [readEnvelopes] at h
        by_cases hroom : (word16 l1 l0).toNat ≤ rest.length
        · rw [if_pos hroom, ne_eq, Option.map_eq_none_iff] at h
          exact ⟨t1, t0, k, l1, l0, rest, rfl, hroom, ih.mp h⟩
        · rw [if_neg hroom] at h
          exact absurd rfl h
    · rintro ⟨t1, t0, k, l1, l0, tl, rfl, hroom, hrest⟩
      rw [readEnvelopes, if_pos hroom, ne_eq, Option.map_eq_none_iff]
      exact ih.mpr hrest

/-- What the form check of a report frame asks when no answer may follow any more: events only (log entry 14). -/
theorem reportFits_false_iff {n : Nat} {bs : List Byte} : reportFits false n bs = true ↔ MadeOf 5 1 n bs := by
  induction n generalizing bs with
  | zero => simp [madeOf_zero, reportFits]
  | succ n ih =>
    rw [madeOf_succ, front_event]
    constructor
    · intro h
      match bs, h with
      | b0 :: b1 :: b2 :: b3 :: b4 :: b5 :: rest, h =>
        simp only [reportFits, Bool.false_and, Bool.or_false, Bool.and_eq_true, decide_eq_true_eq] at h
        exact ⟨b0, b1, b2, b3, b4, b5, rest, rfl, h.1, ih.mp h.2⟩
    · rintro ⟨b0, b1, b2, b3, b4, b5, tl, rfl, hroom, hrest⟩
      simp [reportFits, hroom, ih.mpr hrest]

/-- The bytes are `n` envelopes, answers first and then events (log entry 14). -/
def AnswersThenEvents (n : Nat) (bs : List Byte) : Prop :=
  ∃ k m a v, k + m = n ∧ bs = a ++ v ∧ MadeOf 4 2 k a ∧ MadeOf 5 1 m v

theorem answersThenEvents_zero {bs : List Byte} : AnswersThenEvents 0 bs ↔ bs = [] := by
  constructor
  · rintro ⟨k, m, a, v, hsum, rfl, ha, hv⟩
    obtain ⟨rfl, rfl⟩ : k = 0 ∧ m = 0 := by omega
    rw [madeOf_zero.mp ha, madeOf_zero.mp hv]
    rfl
  · rintro rfl
    exact ⟨0, 0, [], [], rfl, rfl, madeOf_zero.mpr rfl, madeOf_zero.mpr rfl⟩

theorem answersThenEvents_succ {n : Nat} {bs : List Byte} : AnswersThenEvents (n + 1) bs ↔
    MadeOf 5 1 (n + 1) bs ∨ ∃ e rest, bs = e ++ rest ∧ IsEnvelope 4 2 e ∧ AnswersThenEvents n rest := by
  constructor
  · rintro ⟨k, m, a, v, hsum, rfl, ha, hv⟩
    cases k with
    | zero =>
      rw [madeOf_zero.mp ha, List.nil_append]
      obtain rfl : m = n + 1 := by omega
      exact .inl hv
    | succ k =>
      obtain ⟨e, rest, rfl, he, hrest⟩ := madeOf_succ.mp ha
      exact .inr ⟨e, rest ++ v, List.append_assoc .., he, k, m, rest, v, by omega, rfl, hrest, hv⟩
  · rintro (hv | ⟨e, _, rfl, he, k, m, a, v, hsum, rfl, ha, hv⟩)
    · exact ⟨0, n + 1, [], bs, by omega, rfl, madeOf_zero.mpr rfl, hv⟩
    · exact ⟨k + 1, m, e ++ a, v, by omega, (List.append_assoc ..).symm, madeOf_succ.mpr ⟨e, a, rfl, he, ha⟩, hv⟩

theorem reportFits_true_iff {n : Nat} {bs : List Byte} : reportFits true n bs = true ↔ AnswersThenEvents n bs := by
  induction n generalizing bs with
  | zero => simp [answersThenEvents_zero, reportFits]
  | succ n ih =>
    rw [answersThenEvents_succ, madeOf_succ, front_event, front_answer]
    constructor
    · intro h
      match bs, h with
      | b0 :: b1 :: b2 :: b3 :: b4 :: b5 :: rest, h =>
        simp only [reportFits, Bool.true_and, Bool.or_eq_true, Bool.and_eq_true, decide_eq_true_eq, reportFits_false_iff, ih] at h
        exact h.imp (fun he => ⟨b0, b1, b2, b3, b4, b5, rest, rfl, he⟩) fun ha => ⟨b0, b1, b2, b3, b4, b5, rest, rfl, ha⟩
    · rintro (⟨b0, b1, b2, b3, b4, b5, tl, rfl, hroom, hrest⟩ | ⟨b0, b1, b2, b3, b4, b5, tl, rfl, hroom, hrest⟩)
      · simp [reportFits, hroom, reportFits_false_iff.mpr hrest]
      · simp [reportFits, hroom, ih.mpr hrest]

/-! ## The form check and the link check (R150) -/

/-- The form of a body, kind by kind, in the terms of this file. -/
theorem bodyFits_iff {kind count : Nat} {body : List Byte} : BodyFits kind count body ↔
    kind = 1 ∧ count ≤ 128 ∧ body.length = 6 * count ∨
    kind = 2 ∧ count ≤ 128 ∧ body.length = 12 * count ∨
    kind = 3 ∧ count ≤ 8 ∧ MadeOf 3 2 count body ∨
    kind = 4 ∧ count ≤ 12 ∧ 21 ≤ body.length ∧ AnswersThenEvents count (body.drop 21) := by
  refine or_congr_right (or_congr_right (or_congr_right (and_congr_right fun _ => and_congr_right fun _ => ?_)))
  constructor
  · rintro ⟨summary, answers, events, hsummary, hcount, rfl, hanswers, hevents⟩
    refine ⟨by simp [hsummary], answers.length, events.length, answers.flatten, events.flatten, hcount, ?_,
      ⟨answers, rfl, rfl, hanswers⟩, ⟨events, rfl, rfl, hevents⟩⟩
    rw [List.append_assoc, ← hsummary, List.drop_left]
  · rintro ⟨hroom, _, _, _, _, hcount, hrest, ⟨answers, rfl, rfl, hanswers⟩, ⟨events, rfl, rfl, hevents⟩⟩
    refine ⟨body.take 21, answers, events, by simp [hroom], hcount, ?_, hanswers, hevents⟩
    rw [List.append_assoc, ← hrest, List.take_append_drop]

theorem readConsole_taken_iff {count : Nat} {body : List Byte} :
    (∃ rs, readConsoleRecords body = some rs ∧ rs.length = count) ↔ body.length = 6 * count :=
  ⟨fun ⟨_, hrs, hlength⟩ => hlength ▸ readConsoleRecords_length hrs, exists_readConsoleRecords⟩

theorem readFeedback_taken_iff {count : Nat} {body : List Byte} :
    (∃ rs, readFeedbackRecords body = some rs ∧ rs.length = count) ↔ body.length = 12 * count :=
  ⟨fun ⟨_, hrs, hlength⟩ => hlength ▸ readFeedbackRecords_length hrs, exists_readFeedbackRecords⟩

/-- The C-port takes a body just when it has the form of its kind; the D-port takes no setpoint frame (R150, R154). -/
theorem readBody_ne_none {port : Port} {kind : Byte} {h : Header} {count : Nat} {body : List Byte} :
    readBody port kind h count body ≠ none ↔ BodyFits kind.toNat count body ∧ (port = .drive → kind.toNat ≠ 1) := by
  rw [bodyFits_iff, ← readConsole_taken_iff, ← readFeedback_taken_iff, ← readEnvelopes_ne_none, ← reportFits_true_iff]
  unfold readBody
  split
  next hkind =>
    cases port with
    | drive => simp [hkind]
    | console => cases hread : readConsoleRecords body <;> simp [hkind, and_comm]
  next hkind => cases hread : readFeedbackRecords body <;> simp [hkind, and_comm]
  next hkind => cases hread : readEnvelopes count body <;> simp [hkind]
  next hkind => simp [hkind]
  next h1 h2 h3 h4 =>
    refine iff_of_false (fun hread => hread rfl) ?_
    rintro ⟨⟨hk, -⟩ | ⟨hk, -⟩ | ⟨hk, -⟩ | ⟨hk, -⟩, -⟩
    exacts [h1 hk, h2 hk, h3 hk, h4 hk]

/-- A frame of header fields is one whose header spells them, whatever multiples of the field's range they exceed it by. -/
theorem IsFrame.eq_frameBytes {bs body : List Byte} {kind dest source flags seq count : Nat}
    (h : IsFrame bs kind dest source flags seq count body) :
    bs = frameBytes (byteOf kind) ⟨byteOf dest, byteOf source, byteOf flags, BitVec.ofNat 16 seq⟩ count body := by
  obtain ⟨head, check, rfl, hhead, hcheck⟩ := h
  have hmade : Spells (headerBytes (byteOf kind) ⟨byteOf dest, byteOf source, byteOf flags, BitVec.ofNat 16 seq⟩ count
      body.length)
      [(1, (kind : Int)), (1, (dest : Int)), (1, (source : Int)), (1, (flags : Int)), (2, (seq : Int)), (2, (count : Int)),
        (2, (body.length : Int))] :=
    (spells_byteOf kind).append <| (spells_byteOf dest).append <| (spells_byteOf source).append <|
      (spells_byteOf flags).append <| (spells_nat16 seq).append <| (spells_nat16 _).append (spells_nat16 _)
  rw [hhead.unique hmade] at hcheck ⊢
  rw [hcheck.unique (spells_bytes32 _)]
  rfl

/-- The bytes that pass the checks are the frames whose body has the form of their kind (R150). -/
theorem passesChecks_iff {bytes : List Byte} : PassesChecks bytes ↔
    ∃ (kind : Byte) (h : Header) (count : Nat) (body : List Byte), count < 65536 ∧ body.length < 65536 ∧
      bytes = frameBytes kind h count body ∧ BodyFits kind.toNat count body := by
  constructor
  · rintro ⟨kind, dest, source, flags, seq, count, body, hframe, hkind, hcount, hbody, hfits⟩
    refine ⟨byteOf kind, _, count, body, hcount, hbody, hframe.eq_frameBytes, ?_⟩
    rw [byteOf, BitVec.toNat_ofNat, Nat.mod_eq_of_lt hkind]
    exact hfits
  · rintro ⟨kind, h, count, body, hcount, hbody, rfl, hfits⟩
    exact ⟨_, _, _, _, _, _, body, isFrame_frameBytes kind h count body, kind.isLt, hcount, hbody, hfits⟩

/-- A port takes the bytes just when they are a frame whose body it takes (R150). -/
theorem readFrame_ne_none {port : Port} {bytes : List Byte} : readFrame port bytes ≠ none ↔
    ∃ (kind : Byte) (h : Header) (count : Nat) (body : List Byte), count < 65536 ∧ body.length < 65536 ∧
      bytes = frameBytes kind h count body ∧ readBody port kind h count body ≠ none := by
  constructor
  · intro hread
    obtain ⟨f, hf⟩ := Option.ne_none_iff_exists'.mp hread
    obtain ⟨kind, h, count, body, hcount, hbody, hbytes, htaken⟩ := readFrame_eq_some hf
    exact ⟨kind, h, count, body, hcount, hbody, hbytes, Option.ne_none_iff_exists'.mpr ⟨f, htaken⟩⟩
  · rintro ⟨kind, h, count, body, hcount, hbody, rfl, htaken⟩
    rw [readFrame_frameBytes port kind h hcount hbody]
    exact htaken

theorem readFrame_console_ne_none {bytes : List Byte} : readFrame .console bytes ≠ none ↔ PassesChecks bytes := by
  rw [readFrame_ne_none, passesChecks_iff]
  simp [readBody_ne_none]

theorem head_frameBytes (kind : Byte) (h : Header) (count : Nat) (body : List Byte) :
    (frameBytes kind h count body).head? = some kind := rfl

theorem readFrame_drive_ne_none {bytes : List Byte} :
    readFrame .drive bytes ≠ none ↔ PassesChecks bytes ∧ bytes.head? ≠ some 1 := by
  have hone (kind : Byte) : kind.toNat ≠ 1 ↔ some kind ≠ some 1 := by
    rw [ne_eq, ne_eq, Option.some_inj, ← BitVec.toNat_inj]
    rfl
  rw [readFrame_ne_none, passesChecks_iff]
  constructor
  · rintro ⟨kind, h, count, body, hcount, hbody, rfl, htaken⟩
    obtain ⟨hfits, hkind⟩ := readBody_ne_none.mp htaken
    exact ⟨⟨kind, h, count, body, hcount, hbody, rfl, hfits⟩, (hone kind).mp (hkind rfl)⟩
  · rintro ⟨⟨kind, h, count, body, hcount, hbody, rfl, hfits⟩, hhead⟩
    exact ⟨kind, h, count, body, hcount, hbody, rfl, readBody_ne_none.mpr ⟨hfits, fun _ => (hone kind).mpr hhead⟩⟩

/-! ## What a port hands on (R150, R153, R154) -/

theorem emptyBuffer_eq (port : Port) (s : State) : emptyBuffer port s = handedOn port s := by
  cases port <;> rfl

/-- The router hands on no frame of a kind or a destination that it discards (R153, R154). -/
theorem route_discarded {port : Port} {f : Frame} (s : State) (h : f.discardedAt port = true) : route port f s = s := by
  match port, f, h with
  | .console, .feedback _, _ | .console, .report _, _ | .drive, .setpoint _, _ | .drive, .manage _, _ => rfl
  | .console, .manage g, h => exact if_pos (of_decide_eq_true h)

/-- Settles O3: what fails a check of section 10.6, and what the router discards, leaves the buffer empty and no more. -/
theorem discardedFramesChangeNothing : Obligations.DiscardedFramesChangeNothing := by
  refine ⟨fun bytes => ⟨readFrame_console_ne_none, readFrame_drive_ne_none⟩, ?_, ?_⟩
  · intro port bytes s received hdiscarded
    have hnone : readFrame port (Machine.received port s ++ bytes) = none := by
      cases port with
      | console =>
        refine hdiscarded.elim id fun hfails => by_contra fun htaken => hfails ?_
        exact readFrame_console_ne_none.mp htaken
      | drive =>
        refine hdiscarded.elim id fun hfails => by_contra fun htaken => hfails ?_
        exact (readFrame_drive_ne_none.mp htaken).1
    change execCorruptFrame port bytes s = _
    rw [execCorruptFrame, hnone, emptyBuffer_eq]
  · intro port f s hdiscarded
    change Host.Outcome.next (route port f (emptyBuffer port s)) = _
    rw [route_discarded _ hdiscarded, emptyBuffer_eq]

end Sys2Proof.Machine
end

section
/-! SUPPORT. The bytes of what the part builds: field by field, in the layouts of sections 10.6 to 10.10 (R151). -/

namespace Sys2Proof.Machine

/-! ## Bytes of one field -/

theorem spells_nil : Spells [] [] := rfl

/-- A byte in front, and its field. -/
theorem Spells.cons {bs : List Byte} {fields : List (Nat × Int)} (h : Spells bs fields) {b : Byte} {v : Int} (hv : (b.toNat : Int) = v) :
    Spells (b :: bs) ((1, v) :: fields) :=
  hv ▸ (spells_byte b).append h

/-- A number's byte in front, and its field. -/
theorem Spells.consByteOf {bs : List Byte} {fields : List (Nat × Int)} (h : Spells bs fields) (n : Nat) :
    Spells (byteOf n :: bs) ((1, (n : Int)) :: fields) :=
  (spells_byteOf n).append h

theorem spells_map_byteOf {α : Type} (f : α → Nat) (l : List α) :
    Spells (l.map fun a => byteOf (f a)) (l.map fun a => (1, (f a : Int))) := by
  induction l with
  | nil => rfl
  | cons a l ih => exact ih.consByteOf (f a)

theorem valueOf_zeros (n : Nat) : valueOf (List.replicate n 0) = 0 := by
  induction n with
  | zero => rfl
  | succ n ih =>
    rw [List.replicate_succ, valueOf_cons, ih]
    simp

/-- Padding is a field of value 0. -/
theorem spells_zeros (n : Nat) : Spells (List.replicate n 0) [(n, 0)] :=
  spells_one List.length_replicate (by rw [valueOf_zeros]; simp)

/-! ## Flag bytes -/

/-- The byte has the value, and its bits from `n` on are 0. -/
def FlagsBelow (n : Nat) (w : Byte) (v : Int) : Prop := (w.toNat : Int) = v ∧ w.toNat < 2 ^ n

theorem flagsBelow_one (b : Bool) : FlagsBelow 1 (flagBit 0 b) (bitAt 0 b) := by
  cases b
  · exact ⟨rfl, by decide⟩
  · exact ⟨rfl, by decide⟩

/-- One flag more, in the next bit. -/
theorem FlagsBelow.or {n : Nat} {w : Byte} {v : Int} (h : FlagsBelow n w v) (b : Bool) (hn : n < 8) :
    FlagsBelow (n + 1) (w ||| flagBit n b) (v + bitAt n b) := by
  obtain ⟨hv, hw⟩ := h
  cases b with
  | false =>
    have hzero : w ||| flagBit n false = w := by simp [flagBit]
    rw [hzero]
    exact ⟨by simpa [bitAt] using hv, by omega⟩
  | true =>
    have hflag : (flagBit n true).toNat = 2 ^ n := by
      rw [flagBit, if_pos rfl, BitVec.toNat_ofNat]
      exact Nat.mod_eq_of_lt (Nat.pow_lt_pow_right (by decide) hn)
    have hsum : (w ||| flagBit n true).toNat = 2 ^ n + w.toNat := by
      rw [BitVec.toNat_or, hflag, Nat.or_comm, ← Nat.mul_one (2 ^ n), ← Nat.two_pow_add_eq_or_of_lt hw]
    refine ⟨?_, by omega⟩
    rw [hsum, bitAt, if_pos rfl, ← hv]
    push_cast
    ring

/-! ## Table bodies (section 10.9) -/

theorem spells_load (l : LoadSection) : Spells l.bytes (loadFields l) :=
  (spells_int16 _).append <| (spells_int16 _).append <| (spells_int32 _).append <| (spells_int32 _).append <|
    (spells_int32 _).append <| spells_byteOf _

theorem spells_axisBody (b : AxisBody) : Spells b.bytes (axisFields b) := by
  have hfixed : Spells ([flagBit 0 b.load.isSome] ++
      [b.lower, b.upper, b.vmax, b.amax, b.sdec, b.hang, b.crown, b.followTol, b.captureWin, b.trackWin].flatMap int32)
      [(1, bitAt 0 b.load.isSome), (4, b.lower), (4, b.upper), (4, b.vmax), (4, b.amax), (4, b.sdec), (4, b.hang),
        (4, b.crown), (4, b.followTol), (4, b.captureWin), (4, b.trackWin)] :=
    (spells_flatMap _ int32 (fun v => [(4, v)]) spells_int32).cons (flagsBelow_one _).1
  refine hfixed.append ?_
  cases b.load with
  | none => exact spells_nil
  | some l => exact spells_load l

theorem spells_pairBody (b : PairBody) : Spells b.bytes (pairFields b) :=
  (((spells_int32 b.gap).append (spells_int32 b.warn)).consByteOf b.lower.val).consByteOf b.upper.val

theorem spells_axisSet (axes : AxisSet) : Spells axes.bytes (listFields axes) := by
  cases axes with
  | all => exact spells_nil.cons rfl
  | list axes => exact (spells_map_byteOf (fun x : Axis => x.val) axes).consByteOf axes.length

theorem spells_interlockBody (b : InterlockBody) : Spells b.bytes (interlockFields b) := by
  have haxes : Spells ([byteOf b.settleTime] ++ b.axes.bytes) ([(1, (b.settleTime : Int))] ++ listFields b.axes) :=
    (spells_axisSet b.axes).consByteOf b.settleTime
  rw [InterlockBody.bytes, interlockFields, List.append_assoc, List.append_assoc, List.append_assoc, List.append_assoc]
  refine Spells.cons (Spells.append ?_ haxes) rfl
  cases b.action with
  | halt => exact (spells_int16 0).cons rfl
  | slow cap => exact (spells_int16 cap).cons rfl
  | noDown => exact (spells_int16 0).cons rfl
  | noUp => exact (spells_int16 0).cons rfl

theorem spells_settings (r : Settings) : Spells r.bytes (settingsFields r) :=
  ((((spells_int16 r.commissionCap).append (spells_byteOf r.brakeSettle)).consByteOf r.lagDepth).consByteOf r.grace
    |>.consByteOf r.period).cons rfl

/-! ## The axis context (section 10.10) -/

theorem spells_faultDetail (f : AxisFault) : Spells f.detail (faultFields f) := by
  cases f with
  | outOfLimits actual => exact spells_int32 actual
  | followingError seq screened actual =>
    exact (spells_bytes16 seq).append ((spells_int32 screened).append (spells_int32 actual))
  | driveFault code => exact spells_byte code
  | overload load => exact spells_int32 load
  | noDrive => exact spells_nil
  | feedbackLost => exact spells_nil
  | drivePower => exact spells_nil
  | brake => exact spells_nil

/-- A fault record in its 12 bytes. -/
theorem spells_faultRecord (r : FaultRecord) :
    Spells ([r.what.cause.code, byteOf r.further] ++ r.what.padded) (recordedFields r) := by
  rw [AxisFault.padded, (spells_faultDetail r.what).length]
  exact (((spells_faultDetail r.what).append (spells_zeros _)).consByteOf r.further).cons rfl

theorem flagsBelow_status (d : DriveStatus) : FlagsBelow 3 d.byte (statusNumber d) :=
  ((flagsBelow_one _).or _ (by decide)).or _ (by decide)

theorem flagsBelow_presence (c : AxisCtx) : FlagsBelow 8 c.presenceByte
    (bitAt 0 c.pos.isSome + bitAt 1 c.lastReq.isSome + bitAt 2 c.cause.isSome + bitAt 3 c.dest.isSome +
      bitAt 4 c.actual.isSome + bitAt 5 c.filtered.isSome + bitAt 6 c.reference.isSome + bitAt 7 c.fault.isSome) :=
  (((((((flagsBelow_one _).or _ (by decide)).or _ (by decide)).or _ (by decide)).or _ (by decide)).or _ (by decide)).or _
    (by decide)).or _ (by decide)

theorem flagsBelow_flags (c : AxisCtx) :
    FlagsBelow 3 c.flagsByte (bitAt 0 c.capture + bitAt 1 c.acked + bitAt 2 c.clampRun) :=
  ((flagsBelow_one _).or _ (by decide)).or _ (by decide)

theorem statusByte_toNat (d : Option DriveStatus) :
    (((d.map DriveStatus.byte).getD 0).toNat : Int) = (d.map statusNumber).getD 0 := by
  cases d with
  | none => rfl
  | some d => exact (flagsBelow_status d).1

/-- The last twelve bytes of the fixed part: the fault record, or zeros. -/
theorem spells_faultPart (fault : Option FaultRecord) {bytes : List Byte}
    (hbytes : bytes = (fault.map fun r => [r.what.cause.code, byteOf r.further] ++ r.what.padded).getD (List.replicate 12 0)) :
    Spells bytes ((fault.map recordedFields).getD [(12, 0)]) := by
  rw [hbytes]
  cases fault with
  | none => exact spells_zeros 12
  | some r => exact spells_faultRecord r

theorem spells_contextFixed (c : AxisCtx) : Spells c.fixedBytes (contextFixedFields c) := by
  have hfault := spells_faultPart c.fault rfl
  have hlast := ((spells_int32 (c.filtered.getD 0)).append (spells_int32 (c.reference.getD 0))).append
    ((hfault.cons (b := c.outcome.code) rfl).consByteOf c.settle)
  have hstatus := (hlast.cons (b := (c.status.map DriveStatus.code).getD 0) rfl).cons (statusByte_toNat c.status)
  have hactual := (spells_int32 (c.actual.getD 0)).append hstatus
  have hcauses := (hactual.cons (b := (c.dest.map StopDest.code).getD 0) rfl).cons (b := (c.cause.map StopCause.code).getD 0) rfl
  have hnumbers := (spells_int32 (c.pos.getD 0)).append ((spells_int16 c.step).append ((spells_int32 (c.lastReq.getD 0)).append hcauses))
  have hall := ((hnumbers.cons (flagsBelow_flags c).1).cons (flagsBelow_presence c).1).cons (b := c.state.code) rfl
  rw [AxisCtx.fixedBytes, contextFixedFields]
  cases hcase : c.fault <;> simpa [hcase, codeNumber] using hall

theorem spells_outEntry (m : OutEntry) :
    Spells m.bytes [(2, m.seq.toNat), (1, codeNumber m.cmd.code), (1, bitAt 0 m.pos.isSome), (4, m.pos.getD 0)] :=
  (spells_bytes16 m.seq).append (((spells_int32 (m.pos.getD 0)).cons (flagsBelow_one _).1).cons rfl)

theorem spells_context (c : AxisCtx) : Spells c.bytes (contextFields c) := by
  have hring : Spells (c.ring.flatMap int32) (c.ring.map fun load => (4, load)) := by
    rw [List.map_eq_flatMap]
    exact spells_flatMap _ _ _ spells_int32
  have hall := ((spells_contextFixed c).append ((spells_flatMap c.outstanding _ _ spells_outEntry).consByteOf
    c.outstanding.length)).append (hring.consByteOf c.ring.length)
  rw [AxisCtx.bytes, contextFields]
  simpa using hall

/-! ## Answers (sections 10.8 and 10.10) -/

theorem spells_entryOpening (table : TableCode) (index : Nat) (present locked warning : Bool) :
    Spells (entryOpening table index present locked warning)
      [(1, table.code.toNat), (2, index), (1, bitAt 0 present + bitAt 1 locked + bitAt 2 warning)] :=
  ((spells_nat16 index).append
    (spells_nil.cons (((flagsBelow_one present).or locked (by decide)).or warning (by decide)).1)).cons rfl

/-- The body of an entry, or nothing. -/
theorem spells_optional {α : Type} {bytes : α → List Byte} {fields : α → List (Nat × Int)} (h : ∀ a, Spells (bytes a) (fields a))
    (body : Option α) : Spells ((body.map bytes).getD []) ((body.map fields).getD []) := by
  cases body with
  | none => exact spells_nil
  | some a => exact h a

theorem spells_answerBody (a : AnswerBody) : Spells a.bytes (answerFields a) := by
  cases a with
  | empty => exact spells_nil
  | badField field => exact spells_byteOf field
  | outOfLimits pos => exact spells_int32 pos
  | duplicatePair index => exact spells_nat16 index.val
  | axis a => exact spells_byteOf a.val
  | axisEntry index v => exact (spells_entryOpening ..).append (spells_optional spells_axisBody v.body)
  | pairEntry index v => exact (spells_entryOpening ..).append (spells_optional spells_pairBody v.body)
  | lineEntry index v settled =>
    exact ((spells_entryOpening ..).append (spells_optional spells_interlockBody v.body)).append (spells_byte settled.code)
  | context c tare => exact spells_context c
  | settings r => exact spells_settings r
  | staged axes => exact spells_byteOf axes
  | taken cue counted others => exact (spells_bytes16 cue).append ((spells_byteOf others).consByteOf counted)
  | dropped cue => exact (spells_bytes16 (cue.getD 0)).cons (flagsBelow_one _).1
  | halted stopped disarmed => exact (spells_byteOf disarmed).consByteOf stopped
  | tareStage stage => exact spells_byteOf stage

theorem spells_answer (a : Answer) : Spells a.bytes ([(2, (a.tag.toNat : Int)), (1, a.kind.toNat),
    (1, codeNumber a.result.code), (2, widthOf (answerFields a.body))] ++ answerFields a.body) := by
  rw [Answer.bytes, (spells_answerBody a.body).length]
  exact ((spells_bytes16 a.tag).append (((spells_nat16 _).cons rfl).cons rfl)).append (spells_answerBody a.body)

/-! ## Events (section 10.10) -/

theorem spells_origin (ack : Option Word16) : Spells (originBytes ack) (originFields ack) := by
  cases ack with
  | none => exact spells_nil.cons rfl
  | some ack => exact (spells_bytes16 ack).cons rfl

/-- The class, the kind and the subject of an event are those of its layout. -/
theorem eventLayout_head (e : Event) :
    (eventLayout e).1 = ((e.cls.number : Int), (e.kindCode.toNat : Int), (e.subject : Int)) := by
  cases e <;> rfl

theorem spells_detail (e : Event) : Spells e.detail (eventLayout e).2 := by
  cases e with
  | axisFaulted x f => exact (spells_faultDetail f).cons rfl
  | axisStopped x cause pos => exact (spells_int32 pos).cons rfl
  | interlockChanged l level assertion => exact (spells_nil.cons rfl).cons rfl
  | tareDone x offset => exact spells_int16 offset
  | tareBad x stage count reason => exact ((spells_nil.cons rfl).consByteOf count).consByteOf stage
  | consoleLate down con => exact (spells_bytes16 down).append (spells_bytes16 con)
  | consoleResumed late con => exact (spells_nat16 late).append (spells_bytes16 con)
  | frameEarly seq => exact spells_bytes16 seq
  | frameStale seq con => exact (spells_bytes16 seq).append (spells_bytes16 con)
  | sequenceGap seq skipped => exact (spells_bytes16 seq).append (spells_bytes16 skipped)
  | unknownAxis n ack => exact spells_origin ack
  | duplicateRecord n ack => exact spells_origin ack
  | strayFeedback x ack => exact spells_bytes16 ack
  | foreignManageDropped dest reason source seq => exact ((spells_bytes16 seq).cons rfl).cons rfl
  | clearanceWarning entry x sep => exact (spells_int32 sep).consByteOf x.val
  | protection index table kind => exact (spells_nil.cons rfl).cons rfl
  | clampBegin x outcome step => exact (spells_int16 step).cons rfl
  | axisLocated x pos => exact spells_int32 pos

theorem spells_queuedEvent (q : QueuedEvent) : Spells q.bytes ([(1, (eventLayout q.event).1.1), (1, (eventLayout q.event).1.2.1),
    (2, (eventLayout q.event).1.2.2), (1, (q.count : Int)), (1, widthOf (eventLayout q.event).2)] ++ (eventLayout q.event).2) := by
  rw [QueuedEvent.bytes, eventLayout_head, (spells_detail q.event).length]
  exact (((spells_nat16 _).append ((spells_byteOf _).consByteOf q.count)).cons rfl).consByteOf _ |>.append (spells_detail q.event)

theorem widthOf_append (a b : List (Nat × Int)) : widthOf (a ++ b) = widthOf a + widthOf b := by
  rw [widthOf, List.map_append, List.sum_append, widthOf, widthOf]

/-- A fault record takes twelve bytes, whatever the fault. -/
theorem widthOf_fault (fault : Option FaultRecord) : widthOf ((fault.map recordedFields).getD [(12, 0)]) = 12 := by
  cases fault with
  | none => rfl
  | some r =>
    obtain ⟨what, further⟩ := r
    cases what <;> rfl

/-- Settles O13: each envelope, body and detail spells the fields of its layout, and the codes are those of their lists. -/
theorem answersAndEventsFollowLayout : Obligations.AnswersAndEventsFollowLayout := by
  refine ⟨spells_answer, spells_queuedEvent, fun c => ?_, ?_⟩
  · rw [contextFixedFields, widthOf_append, widthOf_fault]
    rfl
  · exact ⟨rfl, rfl, rfl, rfl, rfl, fun _ => rfl, fun _ => rfl, rfl, rfl, rfl, rfl, rfl, rfl⟩

/-! ## Frames (sections 10.6, 10.7 and 10.10) -/

theorem spells_downRecord (q : DownRecord) : Spells q.bytes (recordFields q) :=
  (((spells_int32 (q.pos.getD 0)).append (spells_int16 q.step)).cons rfl).consByteOf q.axis.val

/-- Two bits more at the low end of the levels' field. -/
theorem toNat_shiftTwo_or (w : Word32) {b : Byte} (hb : b.toNat < 4) :
    ((w <<< 2) ||| b.setWidth 32).toNat = (4 * w.toNat + b.toNat) % 2 ^ 32 := by
  have hbyte : (b.setWidth 32).toNat = b.toNat := by
    rw [BitVec.toNat_setWidth]
    omega
  have hshift : (w <<< 2).toNat = 2 ^ 2 * (w.toNat % 2 ^ 30) := by
    rw [BitVec.toNat_shiftLeft, Nat.shiftLeft_eq]
    omega
  rw [BitVec.toNat_or, hbyte, hshift, ← Nat.two_pow_add_eq_or_of_lt (i := 2) hb]
  omega

/-- The levels' field has two bits for each line, line 0 lowest. -/
theorem levelsField_toNat (levels : List Settled) :
    ((levelsField levels).toNat : Int) = levels.foldr (fun v n => 4 * n + codeNumber v.code) 0 % 256 ^ 4 := by
  induction levels with
  | nil => rfl
  | cons x levels ih =>
    have hx : x.code.toNat < 4 := by
      cases x with
      | unsettled => decide
      | known level => cases level <;> decide
    change ((((levelsField levels) <<< 2) ||| x.code.setWidth 32).toNat : Int) = _
    rw [toNat_shiftTwo_or _ hx, List.foldr_cons, codeNumber]
    push_cast
    omega

theorem spells_summary (y : Summary) : Spells y.bytes (summaryFields y) := by
  have hcounts : Spells (y.counts.map byteOf) (y.counts.map fun n : Nat => (1, (n : Int))) := spells_map_byteOf id y.counts
  have hflags := (((flagsBelow_one y.active.isSome).or y.staged.isSome (by decide)).or y.lost (by decide)).or y.dropped
    (by decide)
  have hlevels : Spells (bytes32 (levelsField y.levels))
      [(4, y.levels.foldr (fun v n => 4 * n + codeNumber v.code) 0)] :=
    spells_one rfl (by rw [valueOf_bytes32, levelsField_toNat])
  have hall := (((((spells_bytes16 (y.active.getD 0)).append (spells_bytes16 (y.staged.getD 0))).append
    (hcounts.append (hlevels.append ((spells_nat16 y.late).append (spells_nat16 y.waiting))))).cons hflags.1).cons
    (b := y.mode.code) rfl)
  rw [Summary.bytes, summaryFields]
  simpa [codeNumber] using hall

/-! ## Frames that the part forwards (R151) -/

theorem toNat_append_byte {n : Nat} (x : BitVec n) (b : Byte) : (x ++ b).toNat = 256 * x.toNat + b.toNat := by
  rw [BitVec.toNat_append, Nat.shiftLeft_eq, mul_comm, ← Nat.two_pow_add_eq_or_of_lt b.isLt]

theorem bytes32_word32 (b3 b2 b1 b0 : Byte) : bytes32 (word32 b3 b2 b1 b0) = [b3, b2, b1, b0] := by
  refine valueOf_inj rfl ?_
  rw [valueOf_bytes32, word32, toNat_append_byte, toNat_append_byte, toNat_append_byte]
  simp [valueOf]

theorem bytes_of_readFeedbackRecords {body : List Byte} {rs : List FeedbackRecord} (h : readFeedbackRecords body = some rs) :
    rs.flatMap FeedbackRecord.bytes = body := by
  induction body using readFeedbackRecords.induct generalizing rs with
  | case1 => cases h; rfl
  | case2 a st k1 k0 p3 p2 p1 p0 l1 l0 c sp rest ih =>
    obtain ⟨rs', hrs', rfl⟩ := Option.map_eq_some_iff.mp h
    simp [FeedbackRecord.bytes, bytes16_word16, bytes32_word32, ih hrs']
  | case3 body hnil hrecord =>
    rw [readFeedbackRecords] at h
    · nomatch h
    · exact hnil
    · exact hrecord

theorem bytes_of_readEnvelopes {n : Nat} {body : List Byte} {es : List Envelope} (h : readEnvelopes n body = some es) :
    es.length = n ∧ es.flatMap Envelope.bytes = body := by
  induction n generalizing body es with
  | zero =>
    cases body with
    | nil => cases h; exact ⟨rfl, rfl⟩
    | cons _ _ => nomatch h
  | succ n ih =>
    match body, h with
    | t1 :: t0 :: k :: l1 :: l0 :: rest, h =>
      rw [readEnvelopes] at h
      by_cases hroom : (word16 l1 l0).toNat ≤ rest.length
      · rw [if_pos hroom] at h
        obtain ⟨es', hes', rfl⟩ := Option.map_eq_some_iff.mp h
        obtain ⟨hlength, hbytes⟩ := ih hes'
        refine ⟨congrArg Nat.succ hlength, ?_⟩
        simp [Envelope.bytes, bytes16_word16, hbytes, Nat.min_eq_left hroom]
      · rw [if_neg hroom] at h
        nomatch h

/-- The frame that a body of a kind makes, when it has the form of the kind (R150). -/
inductive BodyMade (kind : Byte) (h : Header) (count : Nat) (body : List Byte) : Frame → Prop
  | setpoint {rs : List ConsoleRecord} : kind = 1 → BodyMade kind h count body (.setpoint ⟨h, rs⟩)
  | feedback {rs : List FeedbackRecord} : kind = 2 → readFeedbackRecords body = some rs → rs.length = count →
      BodyMade kind h count body (.feedback ⟨h, rs⟩)
  | manage {es : List Envelope} : kind = 3 → readEnvelopes count body = some es → BodyMade kind h count body (.manage ⟨h, es⟩)
  | report : kind = 4 → BodyMade kind h count body (.report ⟨h, BitVec.ofNat 16 count, body⟩)

theorem bodyMade_of_readBody {port : Port} {kind : Byte} {h : Header} {count : Nat} {body : List Byte} {f : Frame}
    (hread : readBody port kind h count body = some f) : BodyMade kind h count body f := by
  unfold readBody at hread
  split at hread
  next hkind =>
    cases port with
    | drive => nomatch hread
    | console =>
      cases hrs : readConsoleRecords body with
      | none => simp [hrs] at hread
      | some rs =>
        simp only [hrs, Option.ite_none_right_eq_some, Option.some_inj] at hread
        exact hread.2 ▸ .setpoint (BitVec.eq_of_toNat_eq hkind)
  next hkind =>
    cases hrs : readFeedbackRecords body with
    | none => simp [hrs] at hread
    | some rs =>
      simp only [hrs, Option.ite_none_right_eq_some, Option.some_inj] at hread
      exact hread.2 ▸ .feedback (BitVec.eq_of_toNat_eq hkind) hrs hread.1.1
  next hkind =>
    cases hes : readEnvelopes count body with
    | none => simp [hes] at hread
    | some es =>
      simp only [hes, Option.ite_none_right_eq_some, Option.some_inj] at hread
      exact hread.2 ▸ .manage (BitVec.eq_of_toNat_eq hkind) hes
  next hkind =>
    simp only [Option.ite_none_right_eq_some, Option.some_inj] at hread
    exact hread.2 ▸ .report (BitVec.eq_of_toNat_eq hkind)
  next => nomatch hread

/-- A manage frame that a port takes has the bytes that it was received in. -/
theorem bytes_of_readFrame_manage {port : Port} {bytes : List Byte} {f : ManageFrame}
    (hread : readFrame port bytes = some (.manage f)) : ManageFrame.bytes f = bytes := by
  obtain ⟨kind, h, count, body, hcount, hbody, rfl, htaken⟩ := readFrame_eq_some hread
  cases bodyMade_of_readBody htaken with
  | manage hkind hes =>
    obtain ⟨rfl, rfl⟩ := bytes_of_readEnvelopes hes
    rw [ManageFrame.bytes, hkind]

theorem bytes_of_readFrame_feedback {port : Port} {bytes : List Byte} {f : FeedbackFrame}
    (hread : readFrame port bytes = some (.feedback f)) : FeedbackFrame.bytes f = bytes := by
  obtain ⟨kind, h, count, body, hcount, hbody, rfl, htaken⟩ := readFrame_eq_some hread
  cases bodyMade_of_readBody htaken with
  | feedback hkind hrs hlength => rw [FeedbackFrame.bytes, hkind, hlength, bytes_of_readFeedbackRecords hrs]

theorem bytes_of_readFrame_report {port : Port} {bytes : List Byte} {f : DriveReport}
    (hread : readFrame port bytes = some (.report f)) : DriveReport.bytes f = bytes := by
  obtain ⟨kind, h, count, body, hcount, hbody, rfl, htaken⟩ := readFrame_eq_some hread
  cases bodyMade_of_readBody htaken with
  | report hkind => rw [DriveReport.bytes, hkind, BitVec.toNat_ofNat, Nat.mod_eq_of_lt hcount]

/-- The counts of the summary take a byte each. -/
theorem widthOf_bytes (ns : List Nat) : widthOf (ns.map fun n : Nat => (1, (n : Int))) = ns.length := by
  simp [widthOf, Function.comp_def]

/-- Settles O12: each frame is its header, its body and the check value, and what is forwarded is what was received. -/
theorem builtFramesFollowLayout : Obligations.BuiltFramesFollowLayout := by
  refine ⟨fun f => ?_, spells_downRecord, fun f => isFrame_frameBytes .., fun y => ⟨spells_summary y, fun h => ?_⟩,
    fun bytes => ⟨fun f hread => ?_, fun f hread => ?_, fun f hread => ?_⟩, fun _ => rfl, fun _ => rfl, rfl, rfl, rfl, ?_⟩
  · have hframe := isFrame_frameBytes 1 f.hdr f.records.length (f.records.flatMap DownRecord.bytes)
    rw [DownFrame.hdr, (flagsBelow_one f.synthesised).1] at hframe
    exact hframe
  · rw [(spells_summary y).length, summaryFields, widthOf_append, widthOf_append, widthOf_bytes, h]
    rfl
  · exact bytes_of_readFrame_manage hread
  · exact bytes_of_readFrame_feedback hread
  · exact bytes_of_readFrame_report hread
  · decide +kernel

end Sys2Proof.Machine
end

section
/-! SUPPORT. Frames handed on: the router's two ways, the emitters' choices, and the cycle's judgement of a console frame
(R142 to R161). -/

namespace Sys2Proof.Machine

/-! ## Frames from the D-port (R154, R158) -/

theorem handForward_eq (f : Forwarded) (s : State) : handForward f s = { s with up := joinUpstream f s.up } := by
  by_cases hidle : s.up.tx = none ∧ s.up.queue = [] ∧ s.up.slot = none
  · rw [handForward, joinUpstream, if_pos hidle, if_pos (by simpa using hidle)]
  · rw [handForward, joinUpstream, if_neg hidle, if_neg (by simpa using hidle)]
    by_cases hroom : s.up.queue.length < 2 <;> simp [Config.forwardRoom, hroom]

theorem takeFeedbackFrame_eq (f : FeedbackFrame) (s : State) : takeFeedbackFrame f s =
    { s with fb := { s.fb with frames := s.fb.frames ++ (if f.records = [] then [] else [f.records]) } } := by
  unfold takeFeedbackFrame
  cases f.records with
  | nil => simp
  | cons r rs => simp

/-- Settles O4: what comes in at the D-port goes on upstream, and feedback to the monitor as well. -/
theorem driveFramesForwarded : Obligations.DriveFramesForwarded := by
  constructor
  · intro f s
    change Host.Outcome.next (handForward (.feedback f) (takeFeedbackFrame f (emptyBuffer .drive s))) = _
    rw [handForward_eq, takeFeedbackFrame_eq, emptyBuffer_eq]
    rfl
  · intro f s
    change Host.Outcome.next (handForward (.driveReport f) (emptyBuffer .drive s)) = _
    rw [handForward_eq, emptyBuffer_eq]
    rfl

/-! ## Manage frames (R153, R155, R157, R161) -/

theorem manageFits_iff (f : ManageFrame) (s : State) : manageFits f s = true ↔
    s.req.answers.length + (s.req.frames.map List.length).sum + f.requests.length ≤ 16 :=
  decide_eq_true_iff

theorem takeManageFrame_of_fits {f : ManageFrame} {s : State} (h : manageFits f s = true) : takeManageFrame f s =
    { s with req := { s.req with frames := s.req.frames ++ (if f.requests = [] then [] else [f.requests]) } } := by
  rw [takeManageFrame, if_pos h]
  cases f.requests with
  | nil => simp
  | cons e es => simp

theorem handManage_eq (f : ManageFrame) (s : State) : handManage f s =
    if s.down.tx = none ∧ s.down.slot = none ∧ s.down.queue = [] then { s with down := { s.down with tx := some (.manage f) } }
    else if s.down.queue.length < 2 then { s with down := { s.down with queue := s.down.queue ++ [f] } }
    else raise (.foreignManageDropped f.hdr.dest .emitterFull f.hdr.source f.hdr.seq) s := by
  by_cases hidle : s.down.tx = none ∧ s.down.slot = none ∧ s.down.queue = []
  · rw [handManage, if_pos hidle, if_pos (by simpa using hidle)]
  · rw [handManage, if_neg hidle, if_neg (by simpa using hidle), Config.manageRoom]

/-- Settles O5: a manage frame is the part's, or passed on, or dropped with its event. -/
theorem manageFramesAcceptedPassedOrDropped : Obligations.ManageFramesAcceptedPassedOrDropped := by
  constructor
  · intro moment f s hnode hzero
    have hexec : exec (.manageFrame moment f) s = .next (takeManageFrame f (emptyBuffer .console (advanceTo moment s))) := by
      change Host.Outcome.next (routeConsole (.manage f) (emptyBuffer .console (advanceTo moment s))) = _
      exact congrArg Host.Outcome.next ((if_neg hzero).trans (if_pos hnode))
    rw [hexec]
    have hfits := manageFits_iff f (emptyBuffer .console (advanceTo moment s))
    refine ⟨fun hroom => ?_, fun hfull => ?_⟩
    · rw [takeManageFrame_of_fits (hfits.mpr hroom)]
      rfl
    · rw [takeManageFrame, if_neg fun hroom => Nat.not_lt.mpr (hfits.mp hroom) hfull]
      rfl
  · intro f s hzero hnode
    have hexec : exec (.foreignManageFrame f) s = .next (takeForeignFrame f (emptyBuffer .console s)) :=
      congrArg Host.Outcome.next ((if_neg hzero).trans (if_neg hnode))
    rw [hexec, takeForeignFrame, handManage_eq, emptyBuffer_eq]
    rfl

/-! ## The transmitters (R157 to R159) -/

theorem choose_setpoint {d : DownEmitter} {f : DownFrame} (h : d.slot = some f) :
    d.choose = { d with tx := some (.setpoint f), slot := none } := by
  simp [DownEmitter.choose, h]

theorem choose_manage {d : DownEmitter} {f : ManageFrame} {rest : List ManageFrame} (hslot : d.slot = none)
    (hqueue : d.queue = f :: rest) : d.choose = { d with tx := some (.manage f), queue := rest } := by
  simp [DownEmitter.choose, hslot, hqueue]

theorem choose_idle {d : DownEmitter} (hslot : d.slot = none) (hqueue : d.queue = []) : d.choose = { d with tx := none } := by
  simp [DownEmitter.choose, hslot, hqueue]

theorem choose_forwarded {u : UpEmitter} {f : Forwarded} {rest : List Forwarded} (h : u.queue = f :: rest) :
    u.choose = { u with tx := some (.forwarded f), queue := rest } := by
  simp [UpEmitter.choose, h]

theorem choose_report {u : UpEmitter} {r : ReportFrame} (hqueue : u.queue = []) (hslot : u.slot = some r) :
    u.choose = { u with tx := some (.report r), slot := none } := by
  simp [UpEmitter.choose, hslot, hqueue]

theorem choose_nothing {u : UpEmitter} (hqueue : u.queue = []) (hslot : u.slot = none) : u.choose = { u with tx := none } := by
  simp [UpEmitter.choose, hslot, hqueue]

/-- A flag that a frame has carried away is cleared unless it has been set again (R159). -/
theorem flag_and_not (flag carried same : Bool) : (flag && !(carried && same)) = true ↔
    flag = true ∧ ¬ (carried = true ∧ same = true) := by
  cases flag <;> cases carried <;> cases same <;> decide

/-- Settles O6: each transmitter takes the next frame in its order, and a report's flags go with it. -/
theorem transmittersChooseNextFrame : Obligations.TransmittersChooseNextFrame := by
  constructor
  · intro x s hx
    have hexec : exec .dPortSendDone s = .next { s with down := s.down.choose } := by
      change execDPortSendDone s = _
      rw [execDPortSendDone, hx]
    rw [hexec]
    exact ⟨fun f hslot => by rw [choose_setpoint hslot], fun f rest hslot hqueue => by rw [choose_manage hslot hqueue],
      fun hslot hqueue => by rw [choose_idle hslot hqueue]⟩
  · intro x s hx
    have hchoice : (∀ f rest, s.up.queue = f :: rest → s.up.choose = { s.up with tx := some (.forwarded f), queue := rest }) ∧
        (∀ r, s.up.queue = [] → s.up.slot = some r → s.up.choose = { s.up with tx := some (.report r), slot := none }) ∧
        (s.up.queue = [] → s.up.slot = none → s.up.choose = { s.up with tx := none }) :=
      ⟨fun _ _ => choose_forwarded, fun _ => choose_report, choose_nothing⟩
    obtain ⟨hforwarded, hreport, hidle⟩ := hchoice
    cases x with
    | forwarded g =>
      refine ⟨{ s with up := s.up.choose }, ?_, rfl, hforwarded, hreport, hidle, fun _ _ => ⟨rfl, rfl⟩, nofun⟩
      change execCPortSendDone s = _
      rw [execCPortSendDone, hx]
    | report r =>
      refine ⟨clearReported r { s with up := s.up.choose }, ?_, rfl, hforwarded, hreport, hidle, nofun, fun r' hr => ?_⟩
      · change execCPortSendDone s = _
        rw [execCPortSendDone, hx]
      · cases hr
        simp only [clearReported, flag_and_not, decide_eq_true_eq, and_self]

/-! ## Console frames (R142 to R145) -/

theorem acceptFrame_eq (f : SetpointFrame) (skipped : Option Word16) (s : State) :
    acceptFrame f skipped s = frameAccepted f skipped s := by
  unfold acceptFrame frameAccepted resumeConsole
  by_cases hlate : 0 < s.cyc.late
  · rw [if_pos hlate, if_pos hlate]
    cases skipped <;> rfl
  · rw [if_neg hlate, if_neg hlate]
    have hzero : s.cyc.late = 0 := Nat.eq_zero_of_not_pos hlate
    cases skipped <;> simp [startScreening, raiseAll, raise, hzero]

section Judged

variable {f : SetpointFrame} {s : State}

theorem judgeConsoleFrame_start (hmode : s.req.mode = .start) : judgeConsoleFrame f s = s := by
  simp [judgeConsoleFrame, hmode]

theorem judgeConsoleFrame_stopped (hmode : s.req.mode ≠ .start) (hcadence : s.cyc.cadence = .stopped) :
    judgeConsoleFrame f s = frameAccepted f none s := by
  rw [← acceptFrame_eq]
  cases h : s.req.mode <;> simp_all [judgeConsoleFrame]

theorem judgeConsoleFrame_screening (hmode : s.req.mode ≠ .start) (hcadence : s.cyc.cadence = .screening) :
    judgeConsoleFrame f s = raise (.frameEarly f.hdr.seq) s := by
  cases h : s.req.mode <;> simp_all [judgeConsoleFrame]

theorem judgeConsoleFrame_waiting (hmode : s.req.mode ≠ .start) (hcadence : s.cyc.cadence = .waiting) :
    judgeConsoleFrame f s = if windowOpen s then judgeSequence f s else raise (.frameEarly f.hdr.seq) s := by
  cases h : s.req.mode <;> simp_all [judgeConsoleFrame]

theorem windowOpen_iff {m : EmissionMark} (h : s.cyc.mark = some m) : windowOpen s = true ↔ m.moment + m.window ≤ s.now := by
  simp [windowOpen, h]

variable {c : Word16}

theorem judgeSequence_next (h : s.cyc.conSeq = some c) (hnext : f.hdr.seq = c + 1) :
    judgeSequence f s = frameAccepted f none s := by
  have hdiff : f.hdr.seq - c = 1 := by rw [hnext, BitVec.add_comm, BitVec.add_sub_cancel]
  simp [judgeSequence, h, hdiff, acceptFrame_eq]

theorem judgeSequence_later (h : s.cyc.conSeq = some c) (hlow : 2 ≤ (f.hdr.seq - c).toNat)
    (hhigh : (f.hdr.seq - c).toNat ≤ 32768) : judgeSequence f s = frameAccepted f (some (f.hdr.seq - c - 1)) s := by
  have hdiff : f.hdr.seq - c ≠ 1 := by
    intro hone
    rw [hone] at hlow
    exact absurd hlow (by decide)
  simp only [judgeSequence, h, if_neg hdiff, if_pos (And.intro hlow hhigh), acceptFrame_eq]

theorem judgeSequence_stale (h : s.cyc.conSeq = some c) (hstale : f.hdr.seq = c ∨ 32769 ≤ (f.hdr.seq - c).toNat) :
    judgeSequence f s = raise (.frameStale f.hdr.seq c) s := by
  have hrange : (f.hdr.seq - c).toNat = 0 ∨ 32769 ≤ (f.hdr.seq - c).toNat := by
    refine hstale.imp_left fun hsame => ?_
    rw [hsame, BitVec.sub_self]
    rfl
  have hdiff : f.hdr.seq - c ≠ 1 := by
    intro hone
    rw [hone] at hrange
    exact absurd hrange (by decide)
  have hnot : ¬ (2 ≤ (f.hdr.seq - c).toNat ∧ (f.hdr.seq - c).toNat ≤ 32768) := by omega
  simp only [judgeSequence, h, if_neg hdiff, if_neg hnot]

end Judged

/-- Settles O10: mode, cadence, window and sequence number judge a console frame, in that order. -/
theorem consoleFrameIsJudged : Obligations.ConsoleFrameIsJudged := by
  have hexec (moment : Nat) (f : SetpointFrame) (s : State) : exec (.consoleSetpointFrame moment f) s =
      .next (judgeConsoleFrame f { handedOn .console s with now := max s.now moment }) := rfl
  constructor
  · intro moment f s hmode base
    rw [hexec]
    refine ⟨fun hstopped => congrArg Host.Outcome.next (judgeConsoleFrame_stopped (s := base) hmode hstopped), ?_⟩
    intro m c hwaiting hmark hseq hopen
    have hjudged : judgeConsoleFrame f base = judgeSequence f base :=
      (judgeConsoleFrame_waiting (s := base) hmode hwaiting).trans (if_pos ((windowOpen_iff (s := base) hmark).mpr hopen))
    exact ⟨fun hnext => congrArg Host.Outcome.next (hjudged.trans (judgeSequence_next (s := base) hseq hnext)),
      fun hlater => congrArg Host.Outcome.next (hjudged.trans (judgeSequence_later (s := base) hseq hlater.1 hlater.2))⟩
  · intro moment f s base
    rw [hexec]
    refine ⟨fun hmode => by rw [judgeConsoleFrame_start (s := base) hmode],
      fun hmode hscreening => by rw [judgeConsoleFrame_screening (s := base) hmode hscreening], ?_, ?_⟩
    · intro m hmode hwaiting hmark hearly
      rw [judgeConsoleFrame_waiting (s := base) hmode hwaiting,
        if_neg fun hopen => Nat.not_lt.mpr ((windowOpen_iff (s := base) hmark).mp hopen) hearly]
    · intro m c hmode hwaiting hmark hseq hopen hstale
      rw [judgeConsoleFrame_waiting (s := base) hmode hwaiting, if_pos ((windowOpen_iff (s := base) hmark).mpr hopen),
        judgeSequence_stale (s := base) hseq hstale]

/-! ## Deadlines and emissions (R146, R147, R149) -/

theorem synthesise_eq {s : State} {c : Word16} (hseq : s.cyc.conSeq = some c) : synthesise s =
    raiseAll (if s.cyc.late = 0 then [.consoleLate s.cyc.downSeq c] else [])
      { s with
        cyc := { s.cyc with cadence := .screening, timer := false, late := min (s.cyc.late + 1) 65535 }
        engine := some { seq := s.cyc.downSeq, synthesised := true, todo := [], nextAxis := 0, fixed := [], placed := [],
                         restarted := false } } := by
  by_cases hlate : s.cyc.late = 0 <;> simp [synthesise, hseq, hlate, startScreening, raiseAll, raise, raiseLate]

theorem handSetpoint_eq (f : DownFrame) (s : State) : handSetpoint f s = { s with down := joinDownstream f s.down } := by
  cases htx : s.down.tx <;> simp [handSetpoint, joinDownstream, htx]

/-- Settles O11: a deadline that runs out hands the engine an empty frame, and an emission sets the mark of the next cycle. -/
theorem deadlinesAndEmissionsPaceTheCycle : Obligations.DeadlinesAndEmissionsPaceTheCycle := by
  constructor
  · intro m c s hcadence htimer hmark hseq
    change execDeadlineExpiry s = _
    rw [execDeadlineExpiry, hcadence, htimer, hmark]
    exact congrArg Host.Outcome.next (synthesise_eq (s := advanceTo (m.moment + m.deadline) s) hseq)
  · intro moment e s hengine htodo hfixed hall
    change execEmission moment s = _
    have htaken : e.todo.isEmpty ∧ e.fixed.isEmpty ∧ passes s e e.nextAxis 128 := by simp [htodo, hfixed, hall.passes]
    rw [execEmission, hengine]
    refine (if_pos htaken).trans (congrArg Host.Outcome.next ?_)
    rw [emit, handSetpoint_eq]
    by_cases hrestarted : e.restarted = true
    · rw [if_pos hrestarted, if_pos hrestarted]
      rfl
    · rw [if_neg hrestarted, if_neg hrestarted]
      rfl

end Sys2Proof.Machine
end

section
/-! SUPPORT. Request bodies: what is written reads back, and a body out of form is refused with its field number (R101, R108,
R160, R163, section 10.9). -/

namespace Sys2Proof.Machine

/-! ## Fields read back -/

theorem u8_byteOf {n : Nat} (h : n < 256) : u8 (byteOf n) = n := by
  rw [u8, byteOf, BitVec.toNat_ofNat]
  exact Nat.mod_eq_of_lt h

theorem byteOf_toNat {n : Nat} (h : n < 256) : (byteOf n).toNat = n := u8_byteOf h

/-- The unsigned 32-bit field of a value in its range. -/
theorem toNat_ofInt32 {v : Int} (h : 0 ≤ v ∧ v < 4294967296) : ((BitVec.ofInt 32 v).toNat : Int) = v := by
  rw [BitVec.toNat_ofInt]
  omega

theorem toNat_ofInt16 {v : Int} (h : 0 ≤ v ∧ v < 65536) : ((BitVec.ofInt 16 v).toNat : Int) = v := by
  rw [BitVec.toNat_ofInt]
  omega

theorem toInt_ofInt16 {v : Int} (h : -32768 ≤ v ∧ v ≤ 32767) : (BitVec.ofInt 16 v).toInt = v := by
  rw [BitVec.toInt_ofInt, Int.bmod_def]
  omega

theorem toNat_ofNat16 {n : Nat} (h : n < 65536) : (BitVec.ofNat 16 n).toNat = n := by
  rw [BitVec.toNat_ofNat]
  exact Nat.mod_eq_of_lt h

theorem fields32_int32 {vs : List Int} (h : ∀ v ∈ vs, 0 ≤ v ∧ v < 4294967296) : fields32 (vs.flatMap int32) = vs := by
  induction vs with
  | nil => rfl
  | cons v vs ih =>
    obtain ⟨hv, hvs⟩ := List.forall_mem_cons.mp h
    have hvalue := toNat_ofInt32 hv
    simp only [List.flatMap_cons, int32, bytes32, List.cons_append, List.nil_append, fields32, u32, word32_bytes, hvalue]
    exact congrArg (v :: ·) (ih hvs)

theorem decodeLoad_bytes {l : LoadSection} (h : l.InRange) : decodeLoad l.bytes = some l := by
  obtain ⟨gain, tareOffset, overload, slack, snagBand, filterLen⟩ := h
  have hgain := toNat_ofInt16 (v := l.gain) (by omega)
  have htare := toInt_ofInt16 tareOffset
  have hoverload := toNat_ofInt32 (v := l.overload) (by omega)
  have hslack := toNat_ofInt32 (v := l.slack) (by omega)
  have hsnag := toNat_ofInt32 (v := l.snagBand) (by omega)
  have hfilter := u8_byteOf (n := l.filterLen) (by omega)
  simp only [LoadSection.bytes, int16, int32, bytes16, bytes32, List.cons_append, List.nil_append, decodeLoad, u16, u32,
    word16_bytes, word32_bytes, hgain, htare, hoverload, hslack, hsnag, hfilter]

/-- The ten positions and magnitudes that every axis body holds. -/
def AxisBody.numbers (b : AxisBody) : List Int :=
  [b.lower, b.upper, b.vmax, b.amax, b.sdec, b.hang, b.crown, b.followTol, b.captureWin, b.trackWin]

theorem AxisBody.InRange.numbers {b : AxisBody} (h : b.InRange) : ∀ v ∈ b.numbers, 0 ≤ v ∧ v < 4294967296 := by
  obtain ⟨lower, limits, upper, vmax, amax, sdec, hang, crown, followTol, captureWin, trackWin, -⟩ := h
  simp only [AxisBody.numbers, List.mem_cons, List.not_mem_nil, or_false]
  rintro v (rfl | rfl | rfl | rfl | rfl | rfl | rfl | rfl | rfl | rfl) <;> omega

theorem decodeAxisBody_bytes {b : AxisBody} (h : b.InRange) : decodeAxisBody b.bytes = .ok b := by
  have hfields := fields32_int32 h.numbers
  have hlength : (b.numbers.flatMap int32).length = 40 := rfl
  have hbytes : b.bytes = flagBit 0 b.load.isSome :: (b.numbers.flatMap int32 ++ (b.load.map LoadSection.bytes).getD []) := by
    rw [AxisBody.bytes]
    cases b.load <;> rfl
  rw [hbytes, decodeAxisBody, List.take_left' hlength, List.drop_left' hlength, hfields]
  obtain ⟨lower, upper, vmax, amax, sdec, hang, crown, followTol, captureWin, trackWin, load⟩ := b
  cases load with
  | none => simp [AxisBody.numbers, flagBit, int32, bytes32]
  | some l =>
    have hload : decodeLoad l.bytes = some l := decodeLoad_bytes (h.load l rfl)
    simp [AxisBody.numbers, hload, flagBit]

theorem numbers_toSet {ns : List Nat} (h : ∀ n ∈ ns, n ≤ 127) :
    (AxisList.numbers ns).toSet = some (.list (allAxes.filter fun a => ns.contains a.val)) := by
  rw [AxisList.toSet, if_pos]
  simpa [Nat.lt_succ_iff] using h

/-- A list in ascending order is what its numbers name. -/
theorem toSet_of_ascending {xs : List Axis} (h : xs.Pairwise (· < ·)) :
    (AxisList.numbers (xs.map Fin.val)).toSet = some (.list xs) := by
  have hset := numbers_toSet (ns := xs.map Fin.val) (by simp; omega)
  have hsame : allAxes.filter (fun a => (xs.map Fin.val).contains a.val) = xs := by
    refine (toSet_ascending hset).eq_of_mem_iff h fun a => ?_
    simp [allAxes, Fin.val_inj]
  rw [hset, hsame]

theorem length_of_ascending {xs : List Axis} (h : xs.Pairwise (· < ·)) : xs.length < 255 := by
  have hcard := List.Nodup.length_le_card (h.imp ne_of_lt)
  rw [Fintype.card_fin] at hcard
  omega

/-- An axis set in range is read back as the list that names it. -/
theorem decodeAxisList_bytes {axes : AxisSet} (h : ∀ xs, axes = .list xs → xs.Pairwise (· < ·)) :
    ∃ l, decodeAxisList axes.bytes = .ok l ∧ l.toSet = some axes := by
  cases axes with
  | all => exact ⟨.all, rfl, rfl⟩
  | list xs =>
    have hlength := length_of_ascending (h xs rfl)
    have hcount : (byteOf xs.length).toNat = xs.length := byteOf_toNat (by omega)
    have hnumber (x : Axis) : (byteOf x.val).toNat = x.val := byteOf_toNat (by omega)
    refine ⟨.numbers (xs.map Fin.val), ?_, toSet_of_ascending (h xs rfl)⟩
    rw [AxisSet.bytes, decodeAxisList, hcount, if_neg (by omega), if_pos (List.length_map ..), List.map_map]
    exact congrArg (fun ns => Except.ok (AxisList.numbers ns)) (List.map_congr_left fun x _ => hnumber x)

theorem levelOf_levelCode (level : Level) : levelOf (levelCode level).toNat = some level := by
  cases level <;> rfl

/-- The three bytes of an action name it (section 10.9). -/
theorem action_bytes {act : Action} (h : ∀ cap, act = .slow cap → 0 ≤ cap ∧ cap ≤ 20000) :
    ∃ code c1 c0, act.bytes = [code, c1, c0] ∧ actionOf (u16 c1 c0) code.toNat = some act := by
  cases act with
  | slow cap =>
    have hcap := toNat_ofInt16 (v := cap) (by have := h cap rfl; omega)
    refine ⟨2, _, _, rfl, ?_⟩
    rw [u16, word16_bytes]
    exact congrArg (fun c => some (Action.slow c)) hcap
  | halt => exact ⟨1, 0, 0, rfl, rfl⟩
  | noDown => exact ⟨3, 0, 0, rfl, rfl⟩
  | noUp => exact ⟨4, 0, 0, rfl, rfl⟩

/-- Settles O8: each decoder reads back the body that its writer wrote. -/
theorem bodiesReadBackAsWritten : Obligations.BodiesReadBackAsWritten := by
  refine ⟨fun x b hb => ?_, fun i b hb => ?_, fun l b hb => ?_, fun r hr => ?_⟩
  · rw [decodePutAxis, decodeAxisBody_bytes hb, byteOf_toNat (by omega)]
    rfl
  · obtain ⟨-, hgap, hwarn⟩ := hb
    have hi := toNat_ofNat16 (n := i.val) (by omega)
    have hupper := u8_byteOf (n := b.upper.val) (by omega)
    have hlower := u8_byteOf (n := b.lower.val) (by omega)
    have hgap := toNat_ofInt32 (v := b.gap) (by omega)
    have hwarn := toNat_ofInt32 (v := b.warn) (by omega)
    simp only [PairBody.bytes, nat16, int32, bytes16, bytes32, List.cons_append, List.nil_append, decodePutPair, u16, u32,
      word16_bytes, word32_bytes, hi, hupper, hlower, hgap, hwarn]
  · obtain ⟨hcap, haxes, hsettle⟩ := hb
    obtain ⟨code, c1, c0, haction, hnamed⟩ := action_bytes hcap
    obtain ⟨list, hlist, hset⟩ := decodeAxisList_bytes haxes
    refine ⟨⟨(levelCode b.activeLevel).toNat, code.toNat, u16 c1 c0, b.settleTime, list⟩, ?_,
      interlockFields_body_eq_some.mpr ⟨levelOf_levelCode _, hnamed, hset, rfl⟩⟩
    have hsettle := u8_byteOf (n := b.settleTime) (by omega)
    have hl := byteOf_toNat (n := l.val) (by omega)
    simp only [InterlockBody.bytes, haction, List.cons_append, List.nil_append, decodePutInterlock, hlist, hsettle, hl]
    rfl
  · obtain ⟨-, hperiod, hgrace, hlag, hcap, hbrake⟩ := hr
    have hperiod := u8_byteOf (n := r.period) (by omega)
    have hgrace := u8_byteOf (n := r.grace) (by omega)
    have hlag := u8_byteOf (n := r.lagDepth) (by omega)
    have hcap := toNat_ofInt16 (v := r.commissionCap) (by omega)
    have hbrake := u8_byteOf (n := r.brakeSettle) (by omega)
    simp only [Settings.bytes, int16, bytes16, List.cons_append, List.nil_append, decodeSettings, u16, word16_bytes, hperiod,
      hgrace, hlag, hcap, hbrake]

/-! ## Bodies out of form (R160) -/

/-- The field number that a decoder refuses with. -/
def errorOf {α : Type} : Except Nat α → Option Nat
  | .error field => some field
  | .ok _ => none

/-- The field number that decoding refuses a body of a kind with, if it refuses it. -/
def bodyError (kind : Nat) (body : List Byte) : Option Nat :=
  match kind with
  | 1 => errorOf (decodeMode body)
  | 2 | 12 | 14 | 15 => errorOf (decodeEntryRef body)
  | 4 | 8 | 19 | 20 => errorOf (decodeNone body)
  | 5 => errorOf (decodeMask body)
  | 6 => errorOf (decodeAxisList body)
  | 9 => errorOf (decodePutPair body)
  | 10 => errorOf (decodePutInterlock body)
  | 11 => errorOf (decodePutAxis body)
  | 13 => errorOf (decodeSettings body)
  | 18 => errorOf (decodeCue body)
  | _ => errorOf (decodeByte body)

theorem eq_error_of_errorOf {α : Type} {r : Except Nat α} {field : Nat} (h : errorOf r = some field) : r = .error field := by
  cases r with
  | error n => exact congrArg Except.error (Option.some.inj h)
  | ok _ => nomatch h

theorem errorOf_map {α β : Type} (f : α → β) (r : Except Nat α) : errorOf (r.map f) = errorOf r := by
  cases r <;> rfl

section
variable {e : Envelope} {rest : List Envelope} {more : List (List Envelope)} {s : State}

theorem carryOut_error {kind : Byte} {run : Envelope → State → State} {α : Type} {g : RequestGroup} {decoded : Except Nat α}
    {own : α → State → State} {field : Nat} (h : FrontRequest e rest more s) (hkind : e.kind = kind)
    (hrun : run e = judged e g decoded own) (herror : errorOf decoded = some field) :
    carryOut kind run s = .next (answered e rest more .badField (.badField field) s) := by
  rw [carryOut_front run h hkind, hrun, judged_of_error (eq_error_of_errorOf herror), refuseField, answer_withoutFront]

/-- A request whose body decoding refuses is answered with that field number, whatever the mode (R160, R163). -/
theorem exec_bodyError {field : Nat} (h : FrontRequest e rest more s) (hlow : 1 ≤ e.kind.toNat) (hhigh : e.kind.toNat ≤ 20)
    (herror : bodyError e.kind.toNat e.body = some field) :
    exec (requestStep e.kind) s = .next (answered e rest more .badField (.badField field) s) := by
  have hkind : e.kind = BitVec.ofNat 8 e.kind.toNat := by rw [BitVec.ofNat_toNat, BitVec.setWidth_eq]
  generalize e.kind.toNat = k at *
  rw [hkind]
  interval_cases k <;> exact carryOut_error h hkind rfl herror

end

theorem decodeByte_error {body : List Byte} (h : body.length ≠ 1) : errorOf (decodeByte body) = some 0 := by
  unfold decodeByte
  split
  next => exact absurd rfl h
  next => rfl

theorem decodeMask_error {body : List Byte} (h : body.length ≠ 1) : errorOf (decodeMask body) = some 0 := by
  unfold decodeMask
  split
  next => exact absurd rfl h
  next => rfl

theorem decodeNone_error {body : List Byte} (h : body ≠ []) : errorOf (decodeNone body) = some 0 := by
  unfold decodeNone
  split
  next => exact absurd rfl h
  next => rfl

theorem decodeEntryRef_error {body : List Byte} (h : body.length ≠ 3) : errorOf (decodeEntryRef body) = some 0 := by
  unfold decodeEntryRef
  split
  next => exact absurd rfl h
  next => rfl

theorem decodePutPair_error {body : List Byte} (h : body.length ≠ 12) : errorOf (decodePutPair body) = some 0 := by
  unfold decodePutPair
  split
  next => exact absurd rfl h
  next => rfl

theorem decodeSettings_error {body : List Byte} (h : body.length ≠ 7) : errorOf (decodeSettings body) = some 0 := by
  unfold decodeSettings
  split
  next => exact absurd rfl h
  next => rfl

theorem decodeAxisList_error {body : List Byte} (h : listFits body = false) : errorOf (decodeAxisList body) = some 0 := by
  cases body with
  | nil => rfl
  | cons c ns =>
    have hall : c = 255 ↔ c.toNat = 255 := BitVec.toNat_inj.symm
    rw [decodeAxisList]
    by_cases hc : c = 255
    · rw [if_pos (hall.mp hc)]
      simp_all [listFits, errorOf]
    · rw [if_neg (mt hall.mpr hc)]
      simp_all [listFits, errorOf]

theorem decodeCue_error {body : List Byte} (h : listFits (body.drop 2) = false) : errorOf (decodeCue body) = some 0 := by
  unfold decodeCue
  split
  next => exact (errorOf_map _ _).trans (decodeAxisList_error h)
  next => rfl

theorem decodePutInterlock_error {body : List Byte} (h : listFits (body.drop 6) = false) :
    errorOf (decodePutInterlock body) = some 0 := by
  unfold decodePutInterlock
  split
  next => exact (errorOf_map _ _).trans (decodeAxisList_error h)
  next => rfl

theorem length_of_decodeLoad {bs : List Byte} {l : LoadSection} (h : decodeLoad bs = some l) : bs.length = 17 := by
  unfold decodeLoad at h
  split at h
  next => rfl
  next => nomatch h

/-- An axis body that decodes has 41 bytes, or 58 with a load section (section 10.9). -/
theorem decodeAxisBody_error {flags : Byte} {bs : List Byte} (h : bs.length ≠ if flags.getLsbD 0 then 57 else 40) :
    decodeAxisBody (flags :: bs) = .error 0 := by
  rw [decodeAxisBody]
  split
  next hfields hflag hload =>
    have hlength := length_of_decodeLoad hload
    rw [List.length_drop] at hlength
    rw [if_pos hflag] at h
    omega
  next hfields hflag =>
    rw [if_neg (Bool.eq_false_iff.mp hflag)] at h
    rw [if_neg h]
  next => rfl

theorem decodePutAxis_error {body : List Byte} (h : body.length ≠ if (body.getD 1 0).getLsbD 0 then 59 else 42) :
    errorOf (decodePutAxis body) = some 0 := by
  match body, h with
  | [], _ | [_], _ => rfl
  | a :: flags :: bs, h =>
    rw [decodePutAxis, errorOf_map, decodeAxisBody_error, errorOf]
    intro hlength
    apply h
    change bs.length + 1 + 1 = if flags.getLsbD 0 then 59 else 42
    rw [hlength]
    split <;> rfl

/-- A body that has not the form of its kind is refused with field number 0 (R160). -/
theorem bodyError_of_not_fits {kind : Nat} {body : List Byte} (hlow : 1 ≤ kind) (hhigh : kind ≤ 20)
    (h : bodyFits kind body = false) : bodyError kind body = some 0 := by
  have hnone (h : body.isEmpty = false) : errorOf (decodeNone body) = some 0 :=
    decodeNone_error fun hnil => by simp [hnil] at h
  have hmode (h : body.length ≠ 1) : errorOf (decodeMode body) = some 0 := congrArg errorOf (decodeMode_of_length_ne_one h)
  interval_cases kind
  exacts [hmode (ne_of_beq_false h), decodeEntryRef_error (ne_of_beq_false h), decodeByte_error (ne_of_beq_false h), hnone h,
    decodeMask_error (ne_of_beq_false h), decodeAxisList_error h, decodeByte_error (ne_of_beq_false h), hnone h,
    decodePutPair_error (ne_of_beq_false h), decodePutInterlock_error h, decodePutAxis_error (ne_of_beq_false h),
    decodeEntryRef_error (ne_of_beq_false h), decodeSettings_error (ne_of_beq_false h), decodeEntryRef_error (ne_of_beq_false h),
    decodeEntryRef_error (ne_of_beq_false h), decodeByte_error (ne_of_beq_false h), decodeByte_error (ne_of_beq_false h),
    decodeCue_error h, hnone h, hnone h]

/-- A table code outside 1 to 3 is refused with field number 1 (R160). -/
theorem decodeEntryRef_of_other {t b1 b0 : Byte} (hone : t ≠ 1) (htwo : t ≠ 2) (hthree : t ≠ 3) :
    errorOf (decodeEntryRef [t, b1, b0]) = some 1 := by
  have htable : tableOf t = none := by
    unfold tableOf
    split
    next h => exact absurd (BitVec.eq_of_toNat_eq h) hone
    next h => exact absurd (BitVec.eq_of_toNat_eq h) htwo
    next h => exact absurd (BitVec.eq_of_toNat_eq h) hthree
    next => rfl
  rw [decodeEntryRef, htable, errorOf]

/-- Settles O9: the decoders refuse each body that is out of form, and what an axis list names. -/
theorem bodiesOutOfFormAreBadField : Obligations.BodiesOutOfFormAreBadField := by
  refine ⟨fun e rest more s hfront hlow hhigh => ⟨fun hfits => ?_, ?_⟩, fun ns hns => ?_, fun ns hns => ?_, rfl,
    fun x => ⟨List.mem_finRange x, rfl⟩⟩
  · exact exec_bodyError hfront hlow hhigh (bodyError_of_not_fits hlow hhigh hfits)
  · intro t b1 b0 hkind hbody hone htwo hthree
    refine exec_bodyError hfront hlow hhigh ?_
    have herror := decodeEntryRef_of_other (b1 := b1) (b0 := b0) hone htwo hthree
    rw [← hbody] at herror
    rcases hkind with hkind | hkind | hkind | hkind <;> rw [hkind] <;> exact herror
  · exact (toSet_eq_none_iff _).mpr ⟨ns, rfl, hns⟩
  · have hset := numbers_toSet hns
    exact ⟨_, hset, toSet_ascending hset, fun x => by simp [allAxes]⟩

end Sys2Proof.Machine
end

section
/-! SUPPORT. The screening of one axis, by its state: idle, a ramp step, a stop, a candidate taken, a candidate refused
(R43 to R64). -/

namespace Sys2Proof.Machine

section
variable {s : State} {x : Axis} {b : AxisBody} {p : Int}

/-! ## The screening by the state of the axis (R47) -/

theorem startOf_of_tracking (h : (ctxOf s x).state = .tracking) : startOf s x p = ⟨p, (ctxOf s x).step⟩ := by
  rw [startOf, if_pos h]

theorem startOf_of_not_tracking (h : (ctxOf s x).state ≠ .tracking) : startOf s x p = ⟨p, 0⟩ := by
  rw [startOf, if_neg h]

theorem screenAxis_stopping (req : Option Int) (synthesised : Bool) (hstate : (ctxOf s x).state = .stopping)
    (hbody : bodyOf s x = some b) : screenAxis x req synthesised s =
      setCtx x ((requested req (ctxOf s x)).ramped b s.settings.brakeSettle) s := by
  unfold screenAxis
  extract_lets c0 c
  have hc : c.state = .stopping := hstate
  rw [hc, hbody]
  rfl

theorem screenAxis_unrequested (synthesised : Bool) (hstate : (ctxOf s x).state = .tracking) (hbody : bodyOf s x = some b)
    (hpos : (ctxOf s x).pos = some p) : screenAxis x none synthesised s =
      stopInScreening x b (if synthesised then .consoleLate else .missingRecord) (requested none (ctxOf s x)) s := by
  unfold screenAxis
  extract_lets c0 c
  have hc : c.state = .tracking := hstate
  have hp : c.pos = some p := hpos
  rw [hc, hbody, hp]
  rfl

/-- A TRACKING axis takes its candidate, or the stop of the check that refuses it (R57, R58). -/
theorem screenAxis_tracking (r : Int) (synthesised : Bool) (hstate : (ctxOf s x).state = .tracking)
    (hbody : bodyOf s x = some b) (hpos : (ctxOf s x).pos = some p) : screenAxis x (some r) synthesised s =
      (verdictOf s x b p r).elim
        (passCandidate x b (startOf s x p) (candidateOf s x b p r) r (requested (some r) (ctxOf s x)) s)
        fun cause => stopInScreening x b cause (requested (some r) (ctxOf s x)) s := by
  have htracking : screenAxis x (some r) synthesised s = screenTracking x b p r (requested (some r) (ctxOf s x)) s := by
    unfold screenAxis
    extract_lets c0 c
    have hc : c.state = .tracking := hstate
    have hp : c.pos = some p := hpos
    rw [hc, hbody, hp]
    rfl
  have hstart : startOf s x p = ⟨p, (requested (some r) (ctxOf s x)).step⟩ := startOf_of_tracking hstate
  rw [htracking, verdictOf, candidateOf, hstart, screenTracking]
  generalize checkCandidate _ _ _ _ _ _ = verdict
  cases verdict <;> rfl

/-- A HELD axis that may capture takes its candidate, or stays HELD with the cause of the check that refuses it (R62). -/
theorem screenAxis_held (r : Int) (synthesised : Bool) (hstate : (ctxOf s x).state = .held)
    (hbody : bodyOf s x = some b) (hpos : (ctxOf s x).pos = some p) (hmay : MayCapture s x b p r) :
    screenAxis x (some r) synthesised s =
      (verdictOf s x b p r).elim
        (passCandidate x b (startOf s x p) (candidateOf s x b p r) r (requested (some r) (ctxOf s x)) s)
        fun cause => setCtx x (({ requested (some r) (ctxOf s x) with cause := some cause }).withOutcome .refused) s := by
  have hheld : screenAxis x (some r) synthesised s = screenHeld x b p r (requested (some r) (ctxOf s x)) s := by
    unfold screenAxis
    extract_lets c0 c
    have hc : c.state = .held := hstate
    have hp : c.pos = some p := hpos
    rw [hc, hbody, hp]
    rfl
  have hstart : startOf s x p = ⟨p, 0⟩ := startOf_of_not_tracking (by simp [hstate])
  have htest : mayCapture s x b p r (requested (some r) (ctxOf s x)) = true := (mayCapture_iff s x b p r _ rfl).mpr hmay
  rw [hheld, verdictOf, candidateOf, hstart, screenHeld, if_pos htest]
  dsimp only
  generalize checkCandidate _ _ _ _ _ _ = verdict
  cases verdict <;> rfl

/-- The states in which a screening changes no more than the last request and the outcome (R47, R61, R63, R64). -/
def ScreensIdle (s : State) (x : Axis) (req : Option Int) : Prop :=
  (ctxOf s x).state = .locating ∨ (ctxOf s x).state = .parked ∨ (ctxOf s x).state = .faulted ∨
    ((ctxOf s x).state = .held ∧
      ∀ b p r, bodyOf s x = some b → (ctxOf s x).pos = some p → req = some r → ¬ MayCapture s x b p r)

/-- Without a record, a position or a request, a state that would use one is screened as an idle one (log entry 18). -/
theorem screenAxis_idle {req : Option Int} (synthesised : Bool) (h : ScreensIdle s x req) :
    screenAxis x req synthesised s = setCtx x ((requested req (ctxOf s x)).withOutcome .idle) s := by
  unfold screenAxis
  extract_lets c0 c
  rcases h with hstate | hstate | hstate | ⟨hstate, hnot⟩
  · have hc : c.state = .locating := hstate
    rw [hc]
    rfl
  · have hc : c.state = .parked := hstate
    rw [hc]
    rfl
  · have hc : c.state = .faulted := hstate
    rw [hc]
    rfl
  · have hc : c.state = .held := hstate
    rw [hc]
    cases hbody : bodyOf s x with
    | none => rfl
    | some b =>
      cases hpos : c.pos with
      | none => rfl
      | some p =>
        cases req with
        | none => rfl
        | some r => exact if_neg (mt (mayCapture_iff s x b p r c rfl).mp (hnot b p r hbody hpos rfl))

/-- A STOPPING or TRACKING axis without a record is screened as an idle one (log entry 18). -/
theorem screenAxis_bodiless (req : Option Int) (synthesised : Bool)
    (hstate : (ctxOf s x).state = .stopping ∨ (ctxOf s x).state = .tracking) (hbody : bodyOf s x = none) :
    screenAxis x req synthesised s = setCtx x ((requested req (ctxOf s x)).withOutcome .idle) s := by
  unfold screenAxis
  extract_lets c0 c
  rcases hstate with hstate | hstate
  · have hc : c.state = .stopping := hstate
    rw [hc, hbody]
    rfl
  · have hc : c.state = .tracking := hstate
    rw [hc, hbody]
    rfl

theorem screenAxis_unplaced (req : Option Int) (synthesised : Bool) (hstate : (ctxOf s x).state = .tracking)
    (hpos : (ctxOf s x).pos = none) :
    screenAxis x req synthesised s = setCtx x ((requested req (ctxOf s x)).withOutcome .idle) s := by
  unfold screenAxis
  extract_lets c0 c
  have hc : c.state = .tracking := hstate
  have hp : c.pos = none := hpos
  rw [hc, hp]
  cases bodyOf s x <;> rfl

/-- What the screening of a configured axis can make of the part. -/
inductive Screened (s : State) (x : Axis) (req : Option Int) : State → Prop
  | idle : Screened s x req (setCtx x ((requested req (ctxOf s x)).withOutcome .idle) s)
  | refused (cause : StopCause) (hstate : (ctxOf s x).state = .held) :
      Screened s x req (setCtx x (({ requested req (ctxOf s x) with cause := some cause }).withOutcome .refused) s)
  | ramped (b : AxisBody) (hbody : bodyOf s x = some b) (hstate : (ctxOf s x).state = .stopping) :
      Screened s x req (setCtx x ((requested req (ctxOf s x)).ramped b s.settings.brakeSettle) s)
  | stopped (b : AxisBody) (cause : StopCause) (hbody : bodyOf s x = some b) (hstate : (ctxOf s x).state = .tracking) :
      Screened s x req (stopInScreening x b cause (requested req (ctxOf s x)) s)
  | passed (b : AxisBody) (p r : Int) (hbody : bodyOf s x = some b) (hpos : (ctxOf s x).pos = some p) (hreq : req = some r)
      (hstate : (ctxOf s x).state = .tracking ∨ (ctxOf s x).state = .held) :
      Screened s x req
        (passCandidate x b (startOf s x p) (candidateOf s x b p r) r (requested req (ctxOf s x)) s)

theorem screenAxis_screened (req : Option Int) (synthesised : Bool) (h : (ctxOf s x).state ≠ .unconfigured) :
    Screened s x req (screenAxis x req synthesised s) := by
  have hidle (h : ScreensIdle s x req) : Screened s x req (screenAxis x req synthesised s) :=
    screenAxis_idle synthesised h ▸ .idle
  cases hstate : (ctxOf s x).state with
  | unconfigured => exact absurd hstate h
  | locating => exact hidle (.inl hstate)
  | parked => exact hidle (.inr (.inl hstate))
  | faulted => exact hidle (.inr (.inr (.inl hstate)))
  | stopping =>
    cases hbody : bodyOf s x with
    | none => exact screenAxis_bodiless req synthesised (.inl hstate) hbody ▸ .idle
    | some b => exact screenAxis_stopping req synthesised hstate hbody ▸ .ramped b hbody hstate
  | held =>
    by_cases hmay : ∃ b p r, bodyOf s x = some b ∧ (ctxOf s x).pos = some p ∧ req = some r ∧ MayCapture s x b p r
    · obtain ⟨b, p, r, hbody, hpos, rfl, hmay⟩ := hmay
      rw [screenAxis_held r synthesised hstate hbody hpos hmay]
      cases verdictOf s x b p r with
      | none => exact .passed b p r hbody hpos rfl (.inr hstate)
      | some cause => exact .refused cause hstate
    · refine hidle (.inr (.inr (.inr ⟨hstate, fun b p r hbody hpos hreq hm => hmay ⟨b, p, r, hbody, hpos, hreq, hm⟩⟩)))
  | tracking =>
    cases hbody : bodyOf s x with
    | none => exact screenAxis_bodiless req synthesised (.inr hstate) hbody ▸ .idle
    | some b =>
      cases hpos : (ctxOf s x).pos with
      | none => exact screenAxis_unplaced req synthesised hstate hpos ▸ .idle
      | some p =>
        cases req with
        | none => exact screenAxis_unrequested synthesised hstate hbody hpos ▸ .stopped b _ hbody hstate
        | some r =>
          rw [screenAxis_tracking r synthesised hstate hbody hpos]
          cases verdictOf s x b p r with
          | none => exact .passed b p r hbody hpos rfl (.inl hstate)
          | some cause => exact .stopped b cause hbody hstate

end

/-! ## Records dropped and axes passed (R43, R44) -/

section
variable {e : Screening} {s : State}

theorem exec_screenConsoleRecord {r : ConsoleRecord} {rest : List ConsoleRecord} (hengine : s.engine = some e)
    (htodo : e.todo = r :: rest) :
    exec .screenConsoleRecord s = .next (takeConsoleRecord r { e with todo := rest } s) := by
  change execScreenConsoleRecord s = _
  rw [execScreenConsoleRecord, hengine]
  dsimp only
  rw [htodo]

theorem takeConsoleRecord_unknown {r : ConsoleRecord}
    (h : 128 ≤ r.axis.toNat ∨ ∃ x : Axis, r.axis.toNat = x.val ∧ (ctxOf s x).state = .unconfigured) :
    takeConsoleRecord r e s = raise (.unknownAxis r.axis none) { s with engine := some e } := by
  unfold takeConsoleRecord
  rcases h with hlarge | ⟨x, hx, hstate⟩
  · rw [toIndex_eq_none.mpr hlarge]
  · rw [(toIndex_eq_some x).mpr hx.symm]
    exact if_pos hstate

theorem takeConsoleRecord_duplicate {r : ConsoleRecord} {x : Axis} (hx : r.axis.toNat = x.val)
    (hstate : (ctxOf s x).state ≠ .unconfigured) (hscreened : e.hasScreened x = true) :
    takeConsoleRecord r e s = raise (.duplicateRecord r.axis none) { s with engine := some e } := by
  unfold takeConsoleRecord
  rw [(toIndex_eq_some x).mpr hx.symm]
  exact (if_neg hstate).trans (if_pos hscreened)

theorem passes_of_before {x : Axis} (h : ∀ y : Axis, e.nextAxis ≤ y.val → y.val < x.val →
    (ctxOf s y).state ≠ .unconfigured → e.hasScreened y = true) : passes s e e.nextAxis x.val = true := by
  simp only [passes, List.all_eq_true, Bool.or_eq_true, decide_eq_true_eq, screenable, Bool.not_eq_true',
    Bool.and_eq_false_iff, bne_eq_false_iff_eq, Bool.not_eq_false']
  intro y _
  by_cases hlow : y.val < e.nextAxis
  · exact .inl (.inl hlow)
  · by_cases hhigh : x.val ≤ y.val
    · exact .inl (.inr hhigh)
    · exact .inr (or_iff_not_imp_left.mpr (h y (by omega) (by omega)))

end

/-- Settles O14: a record that names no axis to screen leaves its event, and an axis not to be screened moves the engine on. -/
theorem recordsDroppedAndAxesPassed : Obligations.RecordsDroppedAndAxesPassed := by
  refine ⟨fun e r rest s hengine htodo => ⟨fun hunknown => ?_, fun x hx hstate hscreened => ?_⟩,
    fun e x s hengine htodo hreached hbefore hpassed => ?_⟩
  · rw [exec_screenConsoleRecord hengine htodo, takeConsoleRecord_unknown hunknown]
  · rw [exec_screenConsoleRecord hengine htodo,
      takeConsoleRecord_duplicate (e := { e with todo := rest }) hx hstate hscreened]
  · have hnot : screenable s e x = false := by
      rcases hpassed with hstate | hscreened
      · simp [screenable, hstate]
      · simp [screenable, hscreened]
    have htaken : e.todo.isEmpty ∧ e.nextAxis ≤ x.val ∧ passes s e e.nextAxis x.val := by
      simp [htodo, hreached, passes_of_before hbefore]
    change execScreenUnnamedAxis x s = _
    rw [execScreenUnnamedAxis, hengine]
    dsimp only
    rw [if_pos htaken, hnot]
    rfl

/-! ## What a screening touches (R46, R47) -/

/-- What a passed candidate of `x` raises: the warnings, and the beginning of a clamp run (R33, R80, R81). -/
def passEvents (s : State) (x : Axis) (b : AxisBody) (prev cand : Motion) (req : Int) (clampRun : Bool) : List Event :=
  (tzip s.pairTab).filterMap (warnEvent s x b prev cand) ++
    if (candidateOutcome b prev cand req).clamped && !clampRun then
      [.clampBegin x (candidateOutcome b prev cand req) cand.step] else []

theorem passCandidate_eq (x : Axis) (b : AxisBody) (prev cand : Motion) (req : Int) (c : AxisCtx) (s : State) :
    passCandidate x b prev cand req c s = { setCtx x (c.passed b prev cand req) s with
      pairTab := tmap (fun _ e => warnEntry s x b prev cand e) s.pairTab
      ev := (raiseAll (passEvents s x b prev cand req c.clampRun) s).ev } := by
  unfold passCandidate passEvents warnPairs
  dsimp only
  generalize tmap _ _ = pairs
  generalize (tzip s.pairTab).filterMap _ = es
  rw [raiseAll_eq, raiseAll_eq]
  split
  next => 
    rw [List.foldl_append]
    rfl
  next => 
    rw [List.append_nil]
    rfl

section
variable {s t : State} {x : Axis} {req : Option Int}

theorem ramped_lastReq (b : AxisBody) (brakeSettle : Nat) (c : AxisCtx) : (c.ramped b brakeSettle).lastReq = c.lastReq := by
  unfold AxisCtx.ramped
  dsimp only [AxisCtx.withOutcome]
  split
  next => split <;> rfl
  next => rfl

/-- A screening gives its axis one context, which has the last request of the screening. -/
theorem Screened.ctx (h : Screened s x req t) : ∃ c', t.ctx = tset s.ctx x c' ∧ c'.lastReq = (requested req (ctxOf s x)).lastReq := by
  cases h with
  | idle => exact ⟨_, setCtx_ctx .., rfl⟩
  | refused cause hstate => exact ⟨_, setCtx_ctx .., rfl⟩
  | ramped b hbody hstate => exact ⟨_, setCtx_ctx .., ramped_lastReq ..⟩
  | stopped b cause hbody hstate => exact ⟨_, stopInScreening_ctx .., ramped_lastReq ..⟩
  | passed b p r hbody hpos hreq hstate => exact ⟨_, passCandidate_ctx .., rfl⟩

/-- Beside the axis, a screening changes only the outputs, the in-warning flags and the event unit. -/
theorem Screened.frame (h : Screened s x req t) :
    t = { s with ctx := t.ctx, anyFault := t.anyFault, inMotion := t.inMotion, pairTab := t.pairTab, ev := t.ev } := by
  cases h with
  | idle => rfl
  | refused cause hstate => rfl
  | ramped b hbody hstate => rfl
  | stopped b cause hbody hstate => rfl
  | passed b p r hbody hpos hreq hstate =>
    rw [passCandidate_eq]
    generalize tmap _ _ = pairs, raiseAll _ _ = u
    rfl

theorem Screened.pairs (h : Screened s x req t) : WarnedBy s x t.pairTab := by
  cases h with
  | idle => exact .same
  | refused cause hstate => exact .same
  | ramped b hbody hstate => exact .same
  | stopped b cause hbody hstate => exact .same
  | passed b p r hbody hpos hreq hstate => exact passCandidate_pairTab (s := s) .. ▸ .warned ..

theorem Screened.screensOnly (h : Screened s x req t) (e : Option Screening) : ScreensOnly x s { t with engine := e } := by
  obtain ⟨c', hctx, -⟩ := h.ctx
  refine ⟨?_, fun y hy => ?_, fun i => ⟨h.pairs.body i, h.pairs.locked i⟩⟩
  · have hframe := congrArg (fun u : State => { u with engine := e }) h.frame
    exact hframe
  · exact (congrArg (tget · y) hctx).trans (tget_tset_other _ _ hy)

end

/-! ## The record of a screened axis (R21) -/

theorem recordOf_axis_same (x : Axis) (c : AxisCtx) : (recordOf x c).axis = x := by
  cases h : c.state <;> simp [recordOf, h]

theorem recordOf_moving {x : Axis} {c : AxisCtx} (h : c.state = .tracking ∨ c.state = .stopping) :
    recordOf x c = { axis := x, cmd := .follow, pos := c.pos, step := c.step } := by
  rcases h with h | h <;> simp [recordOf, h]

theorem recordOf_held {x : Axis} {c : AxisCtx} (h : c.state = .held) :
    recordOf x c = { axis := x, cmd := .follow, pos := c.pos, step := 0 } := by
  simp [recordOf, h]

theorem recordOf_parked {x : Axis} {c : AxisCtx} (h : c.state = .parked) :
    recordOf x c = { axis := x, cmd := .holdBrake, pos := c.pos, step := 0 } := by
  simp [recordOf, h]

theorem recordOf_locating {x : Axis} {c : AxisCtx} (h : c.state = .locating) :
    recordOf x c = { axis := x, cmd := .holdBrake, pos := none, step := 0 } := by
  simp [recordOf, h]

theorem recordOf_faulted {x : Axis} {c : AxisCtx} (h : c.state = .faulted) :
    recordOf x c = { axis := x, cmd := .quickstop, pos := c.pos, step := 0 } := by
  simp [recordOf, h]

/-- Settles O15: every way of screening an axis leaves the rest as it was, and the record is read off the new context. -/
theorem screeningTouchesOneAxis : Obligations.ScreeningTouchesOneAxis := by
  intro s x cmd req e hscreens
  obtain ⟨hexec, hconfigured⟩ := hscreens.exec_eq
  have hscreened := screenAxis_screened req e.synthesised hconfigured
  obtain ⟨c', hctx, hreq⟩ := hscreened.ctx
  have hx : ctxOf (screenAndFix x req e s) x = c' := (congrArg (tget · x) hctx).trans (tget_tset_same ..)
  refine ⟨_, recordOf x (ctxOf (screenAndFix x req e s) x), hexec, hscreened.screensOnly _, rfl, hx ▸ hreq,
    recordOf_axis_same .., fun h => ?_, fun h => ?_, fun h => ?_, fun h => ?_, fun h => ?_⟩
  · rw [recordOf_locating h]
    exact ⟨rfl, rfl, rfl⟩
  · rw [recordOf_parked h]
    exact ⟨rfl, rfl, rfl⟩
  · rw [recordOf_held h]
    exact ⟨rfl, rfl, rfl⟩
  · rw [recordOf_moving h]
    exact ⟨rfl, rfl, rfl⟩
  · rw [recordOf_faulted h]
    exact ⟨rfl, rfl, rfl⟩

/-! ## The screenings of the statements -/

section
variable {s u : State} {x : Axis} {cmd : Instr} {req : Option Int} {e : Screening} {c : AxisCtx}

/-- A screening that gives its axis the context `c` fixes the record that `c` decides. -/
theorem Screens.exec_setCtx (h : Screens s x cmd req e) (hscreen : screenAxis x req e.synthesised s = setCtx x c u) :
    exec cmd s = .next (fixRecord (recordOf x c) e (setCtx x c u)) := by
  rw [h.exec_eq.1, screenAndFix, hscreen]
  rw [ctxOf_setCtx_same]
  rfl

/-- So does one that stops a TRACKING axis at `p`, with its AXIS_STOPPED. -/
theorem Screens.exec_stopped {b : AxisBody} {cause : StopCause} {p : Int} (h : Screens s x cmd req e)
    (hscreen : screenAxis x req e.synthesised s = stopInScreening x b cause c s) (hpos : c.pos = some p) :
    exec cmd s = .next (fixRecord (recordOf x ((c.stopped cause).ramped b s.settings.brakeSettle)) e
      (raise (.axisStopped x (.stop cause) p) (setCtx x ((c.stopped cause).ramped b s.settings.brakeSettle) s))) := by
  have hevent : stoppedEvent x (.stop cause) c = .axisStopped x (.stop cause) p := by rw [stoppedEvent, hpos, Option.getD_some]
  have hctx (e : Event) (d : AxisCtx) : ctxOf (raise e (setCtx x d s)) x = d := ctxOf_setCtx_same x d s
  rw [h.exec_eq.1, screenAndFix, hscreen, stopInScreening, hevent]
  rw [hctx]
  rfl

end

/-- Settles O16: an idle screening leaves the axis as it was, and its record is that of the state. -/
theorem idleScreeningChangesOutcomeOnly : Obligations.IdleScreeningChangesOutcomeOnly := by
  intro s x cmd req e hscreens hidle
  have hexec := hscreens.exec_setCtx (screenAxis_idle e.synthesised hidle)
  generalize hc : (requested req (ctxOf s x)).withOutcome .idle = c at hexec
  have hstate : c.state = (ctxOf s x).state := hc ▸ rfl
  have hpos : c.pos = (ctxOf s x).pos := hc ▸ rfl
  have hsame : c = { requested req (ctxOf s x) with outcome := .idle, clampRun := false } := hc.symm
  rw [hexec, ← hsame]
  refine congrArg (fun q => Host.Outcome.next (fixRecord q e _)) ?_
  rcases hidle with h | h | h | ⟨h, -⟩
  · rw [recordOf_locating (hstate.trans h), h, if_pos rfl]
  · rw [recordOf_parked (hstate.trans h), h, if_neg nofun, hpos]
  · rw [recordOf_faulted (hstate.trans h), h, if_neg nofun, hpos]
  · rw [recordOf_held (hstate.trans h), h, if_neg nofun, hpos]

/-! ## Stops and ramp steps (R25, R27, R60) -/

/-- The causes with which a check refuses a candidate leave capture permitted as it was, and stop the axis at HELD (R26). -/
theorem checkCandidate_cause {s : State} {x : Axis} {b : AxisBody} {prev cand : Motion} {r : Int} {cause : StopCause}
    (h : checkCandidate s x b prev cand r = some cause) : cause.destination = .held ∧ cause.recapturable = true := by
  unfold checkCandidate at h
  dsimp only at h
  split_ifs at h <;> cases h <;> exact ⟨rfl, rfl⟩

/-- A TRACKING axis stopped in its screening takes its first ramp step in it (R25, R58). -/
theorem stopped_ramped {b : AxisBody} {cause : StopCause} {p : Int} (brakeSettle : Nat) {c : AxisCtx} (hpos : c.pos = some p)
    (hdest : cause.destination = .held) : (c.stopped cause).ramped b brakeSettle =
      stoppedInScreening cause (c.capture && cause.recapturable) p (rampStep b.sdec c.step) c := by
  by_cases hzero : rampStep b.sdec c.step = 0
  · simp [AxisCtx.ramped, AxisCtx.stopped, AxisCtx.toHeld, AxisCtx.withOutcome, stoppedInScreening, hzero, hdest, hpos]
  · simp [AxisCtx.ramped, AxisCtx.stopped, AxisCtx.withOutcome, stoppedInScreening, hzero, hdest, hpos]

/-- The record of an axis that has just been stopped: at the ramp step, also when that is 0. -/
theorem recordOf_stoppedInScreening (x : Axis) (cause : StopCause) (capture : Bool) (p r : Int) (c : AxisCtx) :
    recordOf x (stoppedInScreening cause capture p r c) = { axis := x, cmd := .follow, pos := some (p + r), step := r } := by
  by_cases hzero : r = 0 <;> simp [recordOf, stoppedInScreening, hzero]

/-- Settles O18: the check's cause stops a TRACKING axis, and leaves a HELD one HELD. -/
theorem refusedCandidateIsDiscarded : Obligations.RefusedCandidateIsDiscarded := by
  intro s x cmd r e b p cause hscreens hbody hpos hverdict
  obtain ⟨hdest, hcapture⟩ := checkCandidate_cause hverdict
  refine ⟨fun hstate => ?_, fun hstate hmay => ?_⟩
  · have hscreen := screenAxis_tracking r e.synthesised hstate hbody hpos
    rw [hverdict] at hscreen
    have hexec := hscreens.exec_stopped (c := requested (some r) (ctxOf s x)) hscreen hpos
    rw [stopped_ramped (c := requested (some r) (ctxOf s x)) _ hpos hdest, recordOf_stoppedInScreening, hcapture,
      Bool.and_true] at hexec
    exact hexec
  · have hscreen := screenAxis_held r e.synthesised hstate hbody hpos hmay
    rw [hverdict] at hscreen
    have hexec := hscreens.exec_setCtx hscreen
    exact hexec.trans (congrArg (fun q => Host.Outcome.next (fixRecord q e _)) ((recordOf_held hstate).trans
      (congrArg (fun pos : Option Int => DownRecord.mk x .follow pos 0) hpos)))

/-- Settles O19: without a record a TRACKING axis is stopped, and a STOPPING one goes on to its destination. -/
theorem stoppedAxesTakeRampSteps : Obligations.StoppedAxesTakeRampSteps := by
  constructor
  · intro s x e b p hreaches hbody hpos hstate cause hcause
    have hscreens : Screens s x (.screenUnnamedAxis x) none { e with nextAxis := x.val + 1 } := .unnamed e hreaches
    have hscreen := screenAxis_unrequested e.synthesised hstate hbody hpos
    rw [← hcause] at hscreen
    have hdest : cause.destination = .held := by
      rw [hcause]
      split <;> rfl
    have hcapture : cause.recapturable = !e.synthesised := by
      rw [hcause]
      cases e.synthesised <;> rfl
    have hexec := hscreens.exec_stopped (c := requested none (ctxOf s x)) hscreen hpos
    rw [stopped_ramped (c := requested none (ctxOf s x)) _ hpos hdest, recordOf_stoppedInScreening, hcapture] at hexec
    exact hexec
  · intro s x cmd req e b p dest hscreens hbody hpos hstate hdest
    have hexec := hscreens.exec_setCtx (screenAxis_stopping req e.synthesised hstate hbody)
    refine ⟨fun hramp => ?_, fun hzero hheld => ?_, fun hzero hparked => ?_⟩
    · have hctx : (requested req (ctxOf s x)).ramped b s.settings.brakeSettle = { requested req (ctxOf s x) with
          pos := some (p + rampStep b.sdec (ctxOf s x).step), step := rampStep b.sdec (ctxOf s x).step
          outcome := .ramp, clampRun := false } := by
        simp [AxisCtx.ramped, AxisCtx.withOutcome, requested, hramp, hpos]
      rw [hctx] at hexec
      exact hexec.trans (congrArg (fun q => Host.Outcome.next (fixRecord q e _)) (recordOf_moving (.inr hstate)))
    · have hctx : (requested req (ctxOf s x)).ramped b s.settings.brakeSettle = { requested req (ctxOf s x) with
          state := .held, step := 0, dest := none, outcome := .ramp, clampRun := false } := by
        simp [AxisCtx.ramped, AxisCtx.withOutcome, AxisCtx.toHeld, requested, hzero, hdest, hheld]
      rw [hexec, hctx, recordOf_held rfl]
      exact congrArg (fun pos => Host.Outcome.next (fixRecord { axis := x, cmd := .follow, pos := pos, step := 0 } e _)) hpos
    · have hctx : (requested req (ctxOf s x)).ramped b s.settings.brakeSettle = { requested req (ctxOf s x) with
          state := .parked, step := 0, cause := none, dest := none, capture := false, reference := none
          settle := s.settings.brakeSettle, outcome := .ramp, clampRun := false } := by
        simp [AxisCtx.ramped, AxisCtx.withOutcome, AxisCtx.toParked, requested, hzero, hdest, hparked]
      rw [hexec, hctx, recordOf_parked rfl]
      exact congrArg (fun pos => Host.Outcome.next (fixRecord { axis := x, cmd := .holdBrake, pos := pos, step := 0 } e _)) hpos

end Sys2Proof.Machine
end

section
/-! SUPPORT. The candidate that passes, the order of the checks, and the change of the step in a screening (R52 to R62, R80). -/

namespace Sys2Proof.Machine

/-! ## A candidate taken (R24, R51, R57, R62, R80) -/

section
variable {s : State} {x : Axis} {b : AxisBody} {p r : Int}

theorem screenAxis_passed (synthesised : Bool) (hbody : bodyOf s x = some b) (hpos : (ctxOf s x).pos = some p)
    (hcomputes : ComputesCandidate s x b p r) (hverdict : verdictOf s x b p r = none) : screenAxis x (some r) synthesised s =
      passCandidate x b (startOf s x p) (candidateOf s x b p r) r (requested (some r) (ctxOf s x)) s := by
  rcases hcomputes with hstate | ⟨hstate, hmay⟩
  · rw [screenAxis_tracking r synthesised hstate hbody hpos, hverdict, Option.elim_none]
  · rw [screenAxis_held r synthesised hstate hbody hpos hmay, hverdict, Option.elim_none]

theorem clamped_eq_decide (o : ScreenOutcome) : o.clamped = decide (o = .clampAccel ∨ o = .clampSpeed) := by
  cases o <;> rfl

/-- The reference load is taken in a capture, and kept while the axis tracks (R24, R57). -/
theorem passed_reference {prev cand : Motion} (hcomputes : ComputesCandidate s x b p r) :
    ((requested (some r) (ctxOf s x)).passed b prev cand r).reference =
      if (ctxOf s x).state = .tracking then (ctxOf s x).reference
      else if b.load = none then none else (ctxOf s x).filtered := by
  have hload : (if b.load.isSome then (ctxOf s x).filtered else none) = if b.load = none then none else (ctxOf s x).filtered := by
    cases b.load <;> rfl
  rcases hcomputes with hstate | ⟨hstate, -⟩
  · rw [if_pos hstate]
    exact if_neg (by rw [requested, hstate]; nofun)
  · rw [if_neg (by rw [hstate]; nofun), ← hload]
    exact if_pos hstate

/-- The context that a passed candidate leaves, field by field (R24, R33, R51, R57, R62). -/
theorem passed_eq {prev cand : Motion} (hcomputes : ComputesCandidate s x b p r) :
    (requested (some r) (ctxOf s x)).passed b prev cand r = { ctxOf s x with
      state := .tracking
      pos := some cand.pos
      step := cand.step
      lastReq := some r
      cause := none
      reference := if (ctxOf s x).state = .tracking then (ctxOf s x).reference
        else if b.load = none then none else (ctxOf s x).filtered
      outcome := candidateOutcome b prev cand r
      clampRun := candidateOutcome b prev cand r = .clampAccel ∨ candidateOutcome b prev cand r = .clampSpeed } := by
  rw [← passed_reference (b := b) (prev := prev) (cand := cand) hcomputes, ← clamped_eq_decide]
  rfl

theorem passEvents_eq (s : State) (x : Axis) (b : AxisBody) (prev cand : Motion) (req : Int) (clampRun : Bool) :
    passEvents s x b prev cand req clampRun =
      (List.finRange 512).filterMap (fun i => warnEvent s x b prev cand (i, tget s.pairTab i)) ++
        if (candidateOutcome b prev cand req).clamped = true ∧ clampRun = false then
          [.clampBegin x (candidateOutcome b prev cand req) cand.step] else [] := by
  rw [passEvents, tzip_eq_map, List.filterMap_map]
  simp only [Bool.and_eq_true, Bool.not_eq_true']
  rfl

end

/-- Settles O17: the context, the warnings and the events that a passed candidate leaves. -/
theorem passedCandidateIsTaken : Obligations.PassedCandidateIsTaken := by
  intro s x cmd req e b p hscreens hbody hpos hcomputes hverdict
  obtain ⟨hexec, hconfigured⟩ := hscreens.exec_eq
  have hscreen := screenAxis_passed e.synthesised hbody hpos hcomputes hverdict
  have hscreened := screenAxis_screened (some req) e.synthesised hconfigured
  have hctx : ctxOf (screenAndFix x (some req) e s) x =
      (requested (some req) (ctxOf s x)).passed b (startOf s x p) (candidateOf s x b p req) req := by
    change ctxOf (screenAxis x (some req) e.synthesised s) x = _
    rw [hscreen, ctxOf, passCandidate_ctx, tget_tset_same]
  refine ⟨_, hexec, hscreened.screensOnly _, hctx.trans (passed_eq hcomputes), fun i => ?_, ?_, ?_⟩
  · change (tget (screenAxis x (some req) e.synthesised s).pairTab i).warning = _
    rw [hscreen, passCandidate_pairTab, tget_tmap, warnEntry]
    cases (tget s.pairTab i).body <;> cases ruleSep s x b (startOf s x p) (candidateOf s x b p req) (tget s.pairTab i) <;> rfl
  · rw [hctx]
    change (screenAxis x (some req) e.synthesised s).ev = _
    rw [hscreen, passCandidate_eq, passEvents_eq]
    dsimp only
    congr 3
  · have hrecord : recordOf x (ctxOf (screenAndFix x (some req) e s) x) =
        DownRecord.mk x .follow (some (candidateOf s x b p req).pos) (candidateOf s x b p req).step := by
      rw [hctx]
      rfl
    exact congrArg (fun q => some { e with fixed := insertRecord q e.fixed }) hrecord

/-! ## The order of the checks (R52 to R56) -/

section
variable {s : State} {x : Axis} {b : AxisBody} {prev cand : Motion}

theorem contains_iff_bears (act : Action) : (actionsOn s x).contains act = true ↔ Bears s x act := by
  rw [List.contains_iff_mem, bears_iff]

theorem inLimits_eq_false_iff (b : AxisBody) (p : Int) : (!b.inLimits p) = true ↔ p < b.lower ∨ b.upper < p := by
  rw [AxisBody.inLimits, within, Bool.not_eq_true', decide_eq_false_iff_not]
  omega

theorem ruleRefuses_iff (i : PairIndex) :
    ruleRefuses s x b prev cand (tget s.pairTab i) = true ↔ RefusedByRule s x b prev cand i := by
  unfold ruleRefuses RefusedByRule
  cases (tget s.pairTab i).body <;> cases ruleSep s x b prev cand (tget s.pairTab i) <;> simp

theorem pairRefuses_iff : pairRefuses s x b prev cand = true ↔ ∃ i, RefusedByRule s x b prev cand i := by
  rw [pairRefuses, any_toList]
  exact exists_congr ruleRefuses_iff

end

/-- Settles O22: the first check that fails gives the cause. -/
theorem candidateChecksInOrder : Obligations.CandidateChecksInOrder := by
  intro s x b prev cand req refused diverged directed outside
  have hhalted := contains_iff_bears (s := s) (x := x) .halt
  have hdirections : (cand.step < 0 ∧ (actionsOn s x).contains .noDown) ∨ (0 < cand.step ∧ (actionsOn s x).contains .noUp) ↔
      directed := by rw [contains_iff_bears, contains_iff_bears]
  have hlimits := inLimits_eq_false_iff b (projection b.sdec cand)
  have hpairs := pairRefuses_iff (s := s) (x := x) (b := b) (prev := prev) (cand := cand)
  refine ⟨fun hhalt => if_pos (hhalted.mpr hhalt), fun hhalt hdiverged => ?_, fun hhalt hdiverged hdirected => ?_,
    fun hhalt hdiverged hdirected houtside => ?_, fun hhalt hdiverged hdirected houtside hpair => ?_,
    fun hhalt hdiverged hdirected houtside hpair => ?_⟩
  · exact (if_neg (mt hhalted.mp hhalt)).trans (if_pos hdiverged)
  · exact (if_neg (mt hhalted.mp hhalt)).trans ((if_neg hdiverged).trans (if_pos (hdirections.mpr hdirected)))
  · exact (if_neg (mt hhalted.mp hhalt)).trans ((if_neg hdiverged).trans ((if_neg (mt hdirections.mp hdirected)).trans
      (if_pos (hlimits.mpr houtside))))
  · exact (if_neg (mt hhalted.mp hhalt)).trans ((if_neg hdiverged).trans ((if_neg (mt hdirections.mp hdirected)).trans
      ((if_neg (mt hlimits.mp houtside)).trans (if_pos (hpairs.mpr hpair)))))
  · exact (if_neg (mt hhalted.mp hhalt)).trans ((if_neg hdiverged).trans ((if_neg (mt hdirections.mp hdirected)).trans
      ((if_neg (mt hlimits.mp houtside)).trans (if_neg (mt hpairs.mp (not_exists.mpr hpair))))))

/-! ## The change of the step (R60) -/

section
variable {x : Axis} {c : AxisCtx}

/-- The record of an axis that takes a ramp step shows it, also when the step brings the axis to its destination. -/
theorem recordOf_ramped (b : AxisBody) (brakeSettle : Nat) (h : c.state = .stopping) :
    (recordOf x (c.ramped b brakeSettle)).step = rampStep b.sdec c.step := by
  by_cases hzero : rampStep b.sdec c.step = 0
  · cases hdest : c.dest with
    | none => simp [AxisCtx.ramped, AxisCtx.withOutcome, AxisCtx.toHeld, recordOf, hzero, hdest]
    | some dest => cases dest <;> simp [AxisCtx.ramped, AxisCtx.withOutcome, AxisCtx.toHeld, AxisCtx.toParked, recordOf, hzero, hdest]
  · simp [AxisCtx.ramped, AxisCtx.withOutcome, recordOf, hzero, h]

variable {s : State} {b : AxisBody} {p r : Int}

/-- A candidate differs from the step before it by at most the stopping deceleration (R48, R50). -/
theorem candidateOf_change (hs : Lawful s) (hbody : bodyOf s x = some b) :
    mag ((candidateOf s x b p r).step - (startOf s x p).step) ≤ b.sdec := by
  have hb := hs.tables.axisBody x b hbody
  rw [candidateOf, candidate_step]
  exact speedCap_change (by have := hb.amax; omega) hb.sdec.1 hb.sdec_pos (ContextsSound.effectiveCap_range hs.tables hb).1

end

/-- Settles O24: the step is kept, or it is a ramp step on, or it is the candidate's. -/
theorem stepChangeIsAtMostSdec : Obligations.StepChangeIsAtMostSdec := by
  intro s t x cmd req e b hs hscreens hbody hcue hexec
  obtain ⟨hnext, hconfigured⟩ := hscreens.exec_eq
  obtain rfl : screenAndFix x req e s = t := by rw [hnext] at hexec; exact Host.Outcome.next.inj hexec
  have hpos := (hs.tables.axisBody x b hbody).sdec_pos
  have hscreened := screenAxis_screened req e.synthesised hconfigured
  change mag ((recordOf x (ctxOf (screenAxis x req e.synthesised s) x)).step - _) ≤ _
  have hkept {c : AxisCtx} (h : (recordOf x c).step = (recordOf x (ctxOf s x)).step) :
      mag ((recordOf x c).step - (recordOf x (ctxOf s x)).step) ≤ b.sdec := by
    rw [h, sub_self, mag_zero]
    exact hpos.le
  generalize screenAxis x req e.synthesised s = u at hscreened
  cases hscreened with
  | idle =>
    rw [ctxOf_setCtx_same]
    exact hkept rfl
  | refused cause hstate =>
    rw [ctxOf_setCtx_same]
    exact hkept rfl
  | ramped b' hb hstate =>
    obtain rfl : b = b' := Option.some.inj (hbody.symm.trans hb)
    rw [ctxOf_setCtx_same, recordOf_ramped b _ (c := requested req (ctxOf s x)) hstate, recordOf_moving (.inr hstate)]
    exact rampStep_change hpos _
  | stopped b' cause hb hstate =>
    obtain rfl : b = b' := Option.some.inj (hbody.symm.trans hb)
    rw [ctxOf, stopInScreening_ctx, tget_tset_same, recordOf_ramped b _ (c := (requested req (ctxOf s x)).stopped cause) rfl,
      recordOf_moving (.inl hstate)]
    exact rampStep_change hpos _
  | passed b' p r hb hp hreq hstate =>
    obtain rfl : b = b' := Option.some.inj (hbody.symm.trans hb)
    have hstart : (startOf s x p).step = (recordOf x (ctxOf s x)).step := by
      rcases hstate with hstate | hstate
      · rw [startOf_of_tracking hstate, recordOf_moving (.inl hstate)]
      · rw [startOf_of_not_tracking (by simp [hstate]), recordOf_held hstate]
    have hchange := candidateOf_change (p := p) (r := r) hs hbody
    rw [hstart] at hchange
    rw [ctxOf, passCandidate_ctx, tget_tset_same]
    exact hchange

end Sys2Proof.Machine
end

section
/-! SUPPORT. The append, the two blocks that judge one axis together, and the faults (R30, R31, R45, R115, R136). -/

namespace Sys2Proof.Machine

/-! ## The append (R45, R115) -/

section
variable {s : State} {q : DownRecord} {seq : Word16}

theorem appendRecord_unconfigured (h : (ctxOf s q.axis).state = .unconfigured) : appendRecord seq q s = (s, q) := by
  rw [appendRecord, if_pos h]

theorem appendRecord_room (h : (ctxOf s q.axis).state ≠ .unconfigured)
    (hroom : (ctxOf s q.axis).outstanding.length < s.settings.lagDepth) : appendRecord seq q s =
      (setCtx q.axis { ctxOf s q.axis with outstanding := (ctxOf s q.axis).outstanding ++ [outEntryOf seq q] }
        (noteJudged .engine q.axis s), q) := by
  rw [appendRecord, if_neg h, if_pos hroom]

/-- The list of a FAULTED axis loses what no longer has room (R115). -/
theorem appendRecord_faulted (h : (ctxOf s q.axis).state = .faulted) : appendRecord seq q s =
    (setCtx q.axis { ctxOf s q.axis with
        outstanding := ((ctxOf s q.axis).outstanding ++ [outEntryOf seq q]).drop
          (((ctxOf s q.axis).outstanding ++ [outEntryOf seq q]).length - s.settings.lagDepth) }
      (noteJudged .engine q.axis s), q) := by
  by_cases hroom : (ctxOf s q.axis).outstanding.length < s.settings.lagDepth
  · have hzero : ((ctxOf s q.axis).outstanding ++ [outEntryOf seq q]).length - s.settings.lagDepth = 0 := by
      rw [List.length_append, List.length_singleton]
      omega
    rw [appendRecord_room (by rw [h]; nofun) hroom, hzero, List.drop_zero]
  · rw [appendRecord, if_neg (by rw [h]; nofun), if_neg hroom, if_pos h]

theorem appendRecord_overflow (hconfigured : (ctxOf s q.axis).state ≠ .unconfigured) (hfaulted : (ctxOf s q.axis).state ≠ .faulted)
    (hfull : s.settings.lagDepth ≤ (ctxOf s q.axis).outstanding.length) : appendRecord seq q s =
      overflow seq q.axis (ctxOf s q.axis) (noteJudged .engine q.axis s) := by
  rw [appendRecord, if_neg hconfigured, if_neg (Nat.not_lt.mpr hfull), if_neg hfaulted]

theorem judgeAppend_of_none (h : foundBefore .monitor q.axis s = none) : judgeAppend seq q s = appendRecord seq q s := by
  rw [judgeAppend, h]

end

/-- Settles O27: the list has room, or loses its oldest entry, or overflows. -/
theorem placedRecordJoinsOutstandingList : Obligations.PlacedRecordJoinsOutstandingList := by
  intro s e q rest hengine htodo hall hfixed c entry placing noted
  have hexec := exec_outstandingAppend hengine htodo hall hfixed
  refine ⟨fun hstate => ?_, fun hfound hstate hroom => ?_, fun hfound hstate hfull => ?_, fun hstate hfaulted hfull => ?_⟩
  · have hnone := foundBefore_not_faulted (j := .monitor) (s := s) (x := q.axis) (by rw [hstate]; nofun)
    rw [hexec, judgeAppend_of_none hnone, appendRecord_unconfigured hstate]
  · rw [hexec, judgeAppend_of_none (foundBefore_eq_none hfound), appendRecord_room hstate hroom]
    rfl
  · have hone : (c.outstanding ++ [entry]).length - s.settings.lagDepth = 1 := by
      rw [List.length_append, List.length_singleton]
      omega
    have happend := appendRecord_faulted (seq := e.seq) hstate
    rw [show ((ctxOf s q.axis).outstanding ++ [outEntryOf e.seq q]).length - s.settings.lagDepth = 1 from hone] at happend
    rw [hexec, judgeAppend_of_none (foundBefore_eq_none hfound), happend]
    rfl
  · rw [hexec, judgeAppend_of_none (foundBefore_not_faulted hfaulted), appendRecord_overflow hstate hfaulted hfull]
    rfl

/-! ## Faults judged together (R31) -/

section
variable {s : State} {x : Axis} {r : FeedbackRecord} {rest : List FeedbackRecord} {more : List (List FeedbackRecord)}
  {found : AxisCtx}

theorem judgeAppend_of_found {q : DownRecord} {seq : Word16} (h : FaultedNow s .monitor q.axis found) : judgeAppend seq q s =
    if Config.judgedTogether s.choices ∧ s.settings.lagDepth ≤ found.outstanding.length then
      overflow seq q.axis found (noteJudged .engine q.axis (chosen s))
    else appendRecord seq q (chosen s) := by
  rw [judgeAppend, foundBefore_faulted h]

theorem findsFault_iff (m : OutEntry) (b : AxisBody) : findsFault r m b found = true ↔
    findings r m b found ≠ [] ∨ b.load.any (fun l => l.overload < rawToLoad l r.rawLoad.toInt) = true := by
  unfold findsFault
  rw [stepFaults_eq]
  cases b.load with
  | none => simp
  | some l => by_cases h : l.overload < rawToLoad l r.rawLoad.toInt <;> simp [overloadFaults, loadOf_eq, h]

theorem faultsFoundIn_eq_none_of_list {u : State} (h : ∀ m ∈ found.outstanding, m.seq ≠ r.ack) : faultsFoundIn found x r u = none := by
  unfold faultsFoundIn
  rw [matchEntry_eq_none h]
  cases bodyOf u x <;> rfl

theorem faultsFoundIn_eq_none_of_finds {u : State} {m : OutEntry} {b : AxisBody} {older newer : List OutEntry}
    (hlist : found.outstanding = older ++ m :: newer) (hack : m.seq = r.ack) (hfirst : ∀ o ∈ older, o.seq ≠ r.ack)
    (hbody : bodyOf u x = some b) (hfinds : findsFault r m b found = false) : faultsFoundIn found x r u = none := by
  unfold faultsFoundIn
  rw [hlist, matchEntry_append hack hfirst, hbody]
  exact if_neg (Bool.eq_false_iff.mp hfinds)

/-- The checks of a record for an axis that is FAULTED already leave only the load beside the further faults (R31, R129). -/
theorem checkRecord_of_faulted {m : OutEntry} {b : AxisBody} {t : State} (h : (ctxOf t x).state = .faulted) :
    checkRecord x r m b found t = match b.load with
      | none => stepsTaken x r m b found t
      | some l => loadTaken x l r.rawLoad.toInt (stepsTaken x r m b found t) := by
  have hsteps : (ctxOf (stepsTaken x r m b found t) x).state = .faulted := by
    have hstate := takeFaults_state x (findings r m b found) t (by rw [h]; nofun)
    rw [h, ite_self] at hstate
    exact hstate
  rw [checkRecord_eq, positionLearned_of_ne (by rw [hsteps]; nofun)]
  cases b.load with
  | none => rfl
  | some l =>
    have hconfigured : (ctxOf (stepsTaken x r m b found t) x).state ≠ .unconfigured := by rw [hsteps]; nofun
    have hloaded : (ctxOf (loadTaken x l r.rawLoad.toInt (stepsTaken x r m b found t)) x).state = .faulted := by
      rw [loadTaken_state _ _ _ _ hconfigured, hsteps, ite_self]
    by_cases hlocating : found.state = .locating
    · refine (checkLoad_locating hlocating hconfigured).trans ?_
      rw [loadTakenLocating, if_neg (by rw [hsteps]; exact fun h => nomatch h.1)]
    · exact checkLoad_taken hlocating (.inl hloaded)

/-- The part as the monitor judges a record of an axis that may have been judged together (R31). -/
def judging (s : State) (x : Axis) (rest : List FeedbackRecord) (more : List (List FeedbackRecord)) : State :=
  { chosen s with fb := { frames := rest :: more, taken := x :: s.fb.taken } }

/-- A record of an axis that an append of this moment has faulted, judged as the free value decides (R31). -/
theorem exec_feedbackRecord_found (hframes : s.fb.frames = (r :: rest) :: more) (haxis : r.axis.toNat = x.val)
    (hfresh : x ∉ s.fb.taken) (h : FaultedNow s .engine x found) :
    exec .feedbackRecord s = .next { (if Config.judgedTogether s.choices then
        (faultsFoundIn found x r (judging s x rest more)).getD (matchRecord x r (judging s x rest more))
        else matchRecord x r (judging s x rest more)) with fb := monitorAfter (x :: s.fb.taken) rest more } := by
  have hfound : FaultedNow { s with fb := { frames := rest :: more, taken := x :: s.fb.taken } } .engine x found := h
  rw [exec_feedbackRecord hframes haxis (by rw [h.2.1]; nofun) hfresh, judgeRecord, foundBefore_faulted hfound]
  rfl

/-- Unless the two were judged together and the record finds a fault, it is judged as the list stands. -/
theorem exec_feedbackRecord_standing (hframes : s.fb.frames = (r :: rest) :: more) (haxis : r.axis.toNat = x.val)
    (hfresh : x ∉ s.fb.taken) (h : FaultedNow s .engine x found)
    (hnot : Config.judgedTogether s.choices = true → faultsFoundIn found x r (judging s x rest more) = none) :
    exec .feedbackRecord s = .next (judgedAsStanding x r rest more (chosen s)) := by
  rw [exec_feedbackRecord_found hframes haxis hfresh h, ← judgedAsStanding_eq (s := chosen s) h.2.1]
  by_cases htogether : Config.judgedTogether s.choices = true
  · rw [if_pos htogether, hnot htogether]
    rfl
  · rw [if_neg htogether]
    rfl

/-- Judged together, a record that finds a fault leaves further faults, and the list as the append left it. -/
theorem exec_feedbackRecord_together {m : OutEntry} {b : AxisBody} {older newer : List OutEntry}
    (hframes : s.fb.frames = (r :: rest) :: more) (haxis : r.axis.toNat = x.val)
    (hfresh : x ∉ s.fb.taken) (h : FaultedNow s .engine x found) (htogether : Config.judgedTogether s.choices = true)
    (hlist : found.outstanding = older ++ m :: newer) (hack : m.seq = r.ack) (hfirst : ∀ o ∈ older, o.seq ≠ r.ack)
    (hbody : bodyOf s x = some b) (hfinds : findsFault r m b found = true) :
    exec .feedbackRecord s = .next (recordDone x (x :: s.fb.taken) rest more (checkRecord x r m b found
      (recordMatched x r rest more (ctxOf s x).outstanding (chosen s)))) := by
  obtain ⟨u, hu, hdone⟩ := Option.map_eq_some_iff.mp (faultsFoundIn_eq (s := chosen s) (rest := rest) (more := more)
    hlist hack hfirst hbody hfinds)
  rw [exec_feedbackRecord_found hframes haxis hfresh h, if_pos htogether]
  refine (congrArg (fun o : Option State => Host.Outcome.next { o.getD _ with fb := monitorAfter (x :: s.fb.taken) rest more })
    hu).trans ?_
  exact congrArg Host.Outcome.next hdone

end

/-- Settles O28: the append and the record that have judged one axis together, and when the context found is noted. -/
theorem faultsJudgedTogetherAreFurtherFaults : Obligations.FaultsJudgedTogetherAreFurtherFaults := by
  refine ⟨?_, ?_, ?_⟩
  · intro s e q rest found hengine htodo hall hfixed hfound c list placing noted t
    rw [exec_outstandingAppend hengine htodo hall hfixed, judgeAppend_of_found hfound]
    by_cases htogether : Config.judgedTogether s.choices = true ∧ s.settings.lagDepth ≤ found.outstanding.length
    · rw [if_pos htogether, if_pos htogether]
      rfl
    · rw [if_neg htogether, if_neg htogether, appendRecord_faulted (s := chosen s) hfound.2.1]
      rfl
  · intro s r rest more x found hframes haxis hfresh hfound c taken asked
    refine ⟨?_, fun hstray => ?_⟩
    · intro older m newer b hlist hack hfirst hbody checked overloaded
      by_cases hjudged : Config.judgedTogether s.choices = true ∧ (findings r m b found ≠ [] ∨ overloaded = true)
      · obtain ⟨htogether, hfinds⟩ := hjudged
        rw [if_pos ⟨htogether, hfinds⟩, exec_feedbackRecord_together hframes haxis hfresh hfound htogether hlist hack hfirst hbody
          ((findsFault_iff m b).mpr hfinds)]
        have hmatched : (ctxOf (recordMatched x r rest more (ctxOf s x).outstanding (chosen s)) x).state = .faulted :=
          (congrArg AxisCtx.state (ctxOf_setCtx_same ..)).trans hfound.2.1
        rw [checkRecord_of_faulted hmatched]
        rfl
      · rw [if_neg hjudged]
        refine exec_feedbackRecord_standing hframes haxis hfresh hfound fun htogether => ?_
        exact faultsFoundIn_eq_none_of_finds hlist hack hfirst hbody
          (Bool.eq_false_iff.mpr fun hfinds => hjudged ⟨htogether, (findsFault_iff m b).mp hfinds⟩)
    · exact exec_feedbackRecord_standing hframes haxis hfresh hfound fun _ => faultsFoundIn_eq_none_of_list hstray
  · intro s x noting
    refine ⟨⟨fun h => noteJudged_next ((placedNext_iff s x).mpr h), fun h => noteJudged_not_next (mt (placedNext_iff s x).mp h)⟩,
      fun h => noteJudged_next ((checkedNext_iff s x).mpr h), fun h => noteJudged_not_next (mt (checkedNext_iff s x).mp h)⟩

end Sys2Proof.Machine
end

section
/-! SUPPORT. Faults taken, and feedback records that match or do not (R25, R29 to R36, R112 to R125, R136). -/

namespace Sys2Proof.Machine

/-! ## A fault taken (R30, R31, R36, R136) -/

section
variable {s : State} {x : Axis} {f : AxisFault}

/-- A fault of a FAULTED axis is a further fault (R31). -/
theorem takeFault_of_faulted {c : AxisCtx} (h : c.state = .faulted) :
    c.takeFault f = { c with fault := c.fault.map FaultRecord.again } := by
  cases c
  cases h
  rfl

/-- The tare engine has nothing to abort while the axis under tare is PARKED (R136). -/
theorem informTare_of_kept (h : ∀ t, s.tare = some t → (ctxOf s t.axis).state = .parked) : informTare s = s := by
  unfold informTare
  split
  next => rfl
  next t ht => exact if_pos (h t ht)

theorem informTare_of_left {t : Tare} (ht : s.tare = some t) (hstate : (ctxOf s t.axis).state ≠ .parked) :
    informTare s = raise (.tareBad t.axis t.stage t.count .leftParked) { s with tare := none } := by
  simp only [informTare, ht, if_neg hstate, abortTare]

/-- A context put where it stands already changes nothing (R39, R40). -/
theorem setCtx_ctxOf (h : PinsFollow s) (x : Axis) : setCtx x (ctxOf s x) s = s := by
  obtain ⟨hfault, hmotion⟩ := h
  rw [setCtx, withContexts, ctxOf, tset_tget, ← hfault, ← hmotion]

/-- A fault of an axis that is not under tare leaves the tare engine as it is. -/
theorem takeFault_of_kept (h : ∀ t, s.tare = some t → t.axis ≠ x ∧ (ctxOf s t.axis).state = .parked) :
    takeFault x f s = raiseAll (faultEvents x f (ctxOf s x)) (setCtx x ((ctxOf s x).takeFault f) s) := by
  refine informTare_of_kept fun t ht => ?_
  obtain ⟨hother, hparked⟩ := h t (by simpa using ht)
  have hctx := ctxOf_congr (s := setCtx x ((ctxOf s x).takeFault f) s)
    (raiseAll_same (faultEvents x f (ctxOf s x)) _).2.2.2.2.2.2.2.2.1 t.axis
  rw [hctx, ctxOf_setCtx_other hother]
  exact hparked

theorem takeFault_of_no_tare (h : TareLawful s) (hnot : ∀ t, s.tare = some t → t.axis ≠ x) :
    takeFault x f s = raiseAll (faultEvents x f (ctxOf s x)) (setCtx x ((ctxOf s x).takeFault f) s) :=
  takeFault_of_kept fun t ht => ⟨hnot t ht, (h t ht).2.1⟩

theorem takeFault_of_tare {t : Tare} (h : TareLawful s) (ht : s.tare = some t) (hx : t.axis = x) :
    takeFault x f s = raiseAll [.axisFaulted x f, .tareBad x t.stage t.count .leftParked]
      { setCtx x ((ctxOf s x).toFaulted f) s with tare := none } := by
  obtain ⟨-, hparked, -⟩ := h t ht
  rw [hx] at hparked
  have hevents : faultEvents x f (ctxOf s x) = [.axisFaulted x f] := by rw [faultEvents, hparked]
  have hctx : (ctxOf s x).takeFault f = (ctxOf s x).toFaulted f := by rw [AxisCtx.takeFault, hparked]
  have hleft : (ctxOf (raise (.axisFaulted x f) (setCtx x ((ctxOf s x).toFaulted f) s)) t.axis).state ≠ .parked := by
    have hframe : ctxOf (raise (.axisFaulted x f) (setCtx x ((ctxOf s x).toFaulted f) s)) t.axis = (ctxOf s x).toFaulted f := by
      rw [hx]
      exact ctxOf_setCtx_same ..
    rw [hframe]
    nofun
  rw [takeFault, hevents, hctx]
  refine (informTare_of_left (s := raise (.axisFaulted x f) (setCtx x ((ctxOf s x).toFaulted f) s)) ht hleft).trans ?_
  rw [hx]
  rfl

/-- An axis that is not PARKED is not under tare (R136). -/
theorem TareLawful.not_axis (h : TareLawful s) (hstate : (ctxOf s x).state ≠ .parked) : ∀ t, s.tare = some t → t.axis ≠ x := by
  rintro t ht rfl
  obtain ⟨-, hparked, -⟩ := h t ht
  exact hstate hparked

end

/-- Settles O29: the state of the axis decides what a fault makes of it, and its tare is aborted with it. -/
theorem faultTakenFreezesAxis : Obligations.FaultTakenFreezesAxis := by
  intro x f s htare houtputs c frozen
  have hpins := (pinsFollow_iff s).mpr houtputs
  refine ⟨fun hstate => ?_, fun r hstate hr => ?_, fun p hstate hp => ?_, fun hstate hnot => ?_, fun t ht hx => takeFault_of_tare htare ht hx⟩
  · have hevents : faultEvents x f (ctxOf s x) = [] := by rw [faultEvents, hstate]
    have hctx : (ctxOf s x).takeFault f = ctxOf s x := by rw [AxisCtx.takeFault, hstate]
    rw [takeFault_of_no_tare htare (htare.not_axis (by rw [hstate]; nofun)), hevents, hctx, setCtx_ctxOf hpins]
    rfl
  · have hevents : faultEvents x f (ctxOf s x) = [] := by rw [faultEvents, hstate]
    have hctx : (ctxOf s x).takeFault f = { c with fault := some { r with further := min (r.further + 1) 255 } } := by
      rw [takeFault_of_faulted hstate]
      exact congrArg (fun fault => { c with fault := fault }) (congrArg (Option.map FaultRecord.again) hr)
    rw [takeFault_of_no_tare htare (htare.not_axis (by rw [hstate]; nofun)), hevents, hctx]
    rfl
  · have hevents : faultEvents x f (ctxOf s x) = [.axisFaulted x f, .axisStopped x (.fault f.cause) p] := by
      rw [faultEvents, hstate]
      exact congrArg (fun pos : Option Int => [Event.axisFaulted x f, .axisStopped x (.fault f.cause) (pos.getD 0)]) hp
    have hctx : (ctxOf s x).takeFault f = frozen := by rw [AxisCtx.takeFault, hstate]; rfl
    rw [takeFault_of_no_tare htare (htare.not_axis (by rw [hstate]; nofun)), hevents, hctx]
  · have hevents : faultEvents x f (ctxOf s x) = [.axisFaulted x f] := by
      rcases hstate with h | h | h | h <;> rw [faultEvents, h]
    have hctx : (ctxOf s x).takeFault f = frozen := by
      rcases hstate with h | h | h | h <;> rw [AxisCtx.takeFault, h] <;> rfl
    rw [takeFault_of_no_tare htare hnot, hevents, hctx]
    rfl

/-! ## Records that are ignored (R112, R113, R117) -/

section
variable {s : State} {r : FeedbackRecord} {rest : List FeedbackRecord} {more : List (List FeedbackRecord)}

theorem settleFrame_monitorAfter (taken : List Axis) :
    FeedbackMonitor.settleFrame { frames := rest :: more, taken := taken } = monitorAfter taken rest more := by
  cases rest <;> rfl

/-- A record that the monitor takes no axis for (R113). -/
theorem exec_feedbackRecord_ignored {e : Event} (hframes : s.fb.frames = (r :: rest) :: more)
    (h : takeFeedbackRecord r { s with fb := { s.fb with frames := rest :: more } } =
      raise e { s with fb := { s.fb with frames := rest :: more } }) :
    exec .feedbackRecord s = .next (raise e { s with fb := monitorAfter s.fb.taken rest more }) := by
  change execFeedbackRecord s = _
  rw [execFeedbackRecord, hframes]
  dsimp only
  rw [h, ← settleFrame_monitorAfter]
  rfl

theorem takeFeedbackRecord_unknown
    (h : 128 ≤ r.axis.toNat ∨ ∃ x : Axis, r.axis.toNat = x.val ∧ (ctxOf s x).state = .unconfigured) :
    takeFeedbackRecord r s = raise (.unknownAxis r.axis (some r.ack)) s := by
  unfold takeFeedbackRecord
  rcases h with hlarge | ⟨x, hx, hstate⟩
  · rw [toIndex_eq_none.mpr hlarge]
  · rw [(toIndex_eq_some x).mpr hx.symm]
    exact if_pos hstate

theorem takeFeedbackRecord_duplicate {x : Axis} (hx : r.axis.toNat = x.val) (hstate : (ctxOf s x).state ≠ .unconfigured)
    (htaken : x ∈ s.fb.taken) : takeFeedbackRecord r s = raise (.duplicateRecord r.axis (some r.ack)) s := by
  unfold takeFeedbackRecord
  rw [(toIndex_eq_some x).mpr hx.symm]
  exact (if_neg hstate).trans (if_pos (List.contains_iff_mem.mpr htaken))

theorem judgeRecord_of_none {x : Axis} (h : foundBefore .engine x s = none) : judgeRecord x r s = matchRecord x r s := by
  rw [judgeRecord, h]

theorem matchRecord_stray {x : Axis} (h : ∀ m ∈ (ctxOf s x).outstanding, m.seq ≠ r.ack) :
    matchRecord x r s = raise (.strayFeedback x r.ack) s := by
  rw [matchRecord, matchEntry_eq_none h]

end

/-- Settles O30: a record is ignored for its axis, for its second place, or for want of an entry. -/
theorem unmatchedFeedbackIsIgnored : Obligations.UnmatchedFeedbackIsIgnored := by
  intro s r rest more hframes
  refine ⟨fun hunknown => exec_feedbackRecord_ignored hframes (takeFeedbackRecord_unknown hunknown), fun x hx hstate =>
    ⟨fun htaken => exec_feedbackRecord_ignored hframes (takeFeedbackRecord_duplicate hx hstate htaken),
      fun hfresh hstray hfound => ?_⟩⟩
  have hnone : foundBefore .engine x { s with fb := { frames := rest :: more, taken := x :: s.fb.taken } } = none :=
    foundBefore_eq_none hfound
  rw [exec_feedbackRecord hframes hx hstate hfresh, judgeRecord_of_none hnone]
  exact congrArg (fun t : State => Host.Outcome.next { t with fb := monitorAfter (x :: s.fb.taken) rest more })
    (matchRecord_stray (s := { s with fb := { frames := rest :: more, taken := x :: s.fb.taken } }) hstray)

/-- A record that matches an entry of the standing list is matched (R117). -/
theorem judgedAsStanding_matched {s : State} {r : FeedbackRecord} {rest : List FeedbackRecord}
    {more : List (List FeedbackRecord)} {x : Axis} {older newer : List OutEntry} {m : OutEntry}
    (hlist : (ctxOf s x).outstanding = older ++ m :: newer) (hack : m.seq = r.ack) (hfirst : ∀ o ∈ older, o.seq ≠ r.ack) :
    judgedAsStanding x r rest more s =
      { recordMatched x r rest more newer s with fb := monitorAfter (x :: s.fb.taken) rest more } := by
  have hdrop : (ctxOf s x).outstanding.dropWhile (fun o => o.seq ≠ r.ack) = m :: newer := by
    rw [hlist, List.dropWhile_append_of_pos (by simpa using hfirst), List.dropWhile_cons_of_neg (by simp [hack])]
  rw [judgedAsStanding, hdrop]

/-- Settles O31: matching removes the entries, and the checks follow for an axis that is not FAULTED. -/
theorem matchedFeedbackIsChecked : Obligations.MatchedFeedbackIsChecked := by
  intro s r rest more x older m newer hmatch matched taken
  refine ⟨fun hfaulted hfound => ?_, fun b hstate hbody hload => ?_⟩
  · have hnone : foundBefore .engine x { s with fb := { frames := rest :: more, taken := x :: s.fb.taken } } = none :=
      foundBefore_eq_none hfound
    rw [exec_feedbackRecord hmatch.frames hmatch.axis hmatch.configured hmatch.fresh, judgeRecord_of_none hnone,
      judgedAsStanding_eq hfaulted, judgedAsStanding_matched hmatch.list hmatch.ack hmatch.first]
  · rw [exec_feedbackRecord_checked hmatch hstate hbody, checkRecord_eq, hload]

end Sys2Proof.Machine
end

section
/-! SUPPORT. Step 5 of the checks: the load, the slack and snag checks, and the tare samples (R119, R124, R127 to R135). -/

namespace Sys2Proof.Machine

section
variable {s : State} {r : FeedbackRecord} {rest : List FeedbackRecord} {more : List (List FeedbackRecord)} {x : Axis}
  {older newer : List OutEntry} {m : OutEntry} {b : AxisBody} {l : LoadSection}

/-! ## The part through steps 1 to 4 -/

theorem recordMatched_ctx (newer : List OutEntry) : ctxOf (recordMatched x r rest more newer s) x = heard r newer (ctxOf s x) :=
  ctxOf_setCtx_same ..

theorem stepsTaken_nil {found : AxisCtx} {t : State} (h : findings r m b found = []) : stepsTaken x r m b found t = t := by
  rw [stepsTaken, h, List.foldl_nil]

theorem stepsTaken_state {found : AxisCtx} {t : State} (h : (ctxOf t x).state ≠ .unconfigured) :
    (ctxOf (stepsTaken x r m b found t) x).state = if findings r m b found = [] then (ctxOf t x).state else .faulted :=
  takeFaults_state x (findings r m b found) t h

/-- The state of the axis as steps 1 to 4 leave it, but for the position learned. -/
theorem checked_state (h : (ctxOf s x).state ≠ .unconfigured) :
    (ctxOf (stepsTaken x r m b (ctxOf s x) (recordMatched x r rest more newer s)) x).state =
      if findings r m b (ctxOf s x) = [] then (ctxOf s x).state else .faulted := by
  rw [stepsTaken_state (by rw [recordMatched_ctx]; exact h), recordMatched_ctx]
  rfl

theorem checked_state_ne {st : AxisState} (hconfigured : (ctxOf s x).state ≠ .unconfigured) (h : (ctxOf s x).state ≠ st)
    (hst : st ≠ .faulted) :
    (ctxOf (stepsTaken x r m b (ctxOf s x) (recordMatched x r rest more newer s)) x).state ≠ st := by
  rw [checked_state hconfigured]
  split
  · exact h
  · exact hst.symm

/-- A matched record of an axis with a load section: step 5 on what steps 1 to 4 leave. -/
theorem exec_feedbackRecord_loaded (hmatch : MatchesEntry s r rest more x older m newer) (hstate : (ctxOf s x).state ≠ .faulted)
    (hbody : bodyOf s x = some b) (hload : b.load = some l) : exec .feedbackRecord s =
      .next (recordDone x (x :: s.fb.taken) rest more (checkLoad x l r.rawLoad.toInt (ctxOf s x) (positionLearned x r
        (stepsTaken x r m b (ctxOf s x) (recordMatched x r rest more newer s))))) := by
  rw [exec_feedbackRecord_checked hmatch hstate hbody, checkRecord_eq, hload]

/-- So for an axis that the record did not find LOCATING. -/
theorem exec_feedbackRecord_located (hmatch : MatchesEntry s r rest more x older m newer) (hstate : (ctxOf s x).state ≠ .faulted)
    (hbody : bodyOf s x = some b) (hload : b.load = some l) (hlocating : (ctxOf s x).state ≠ .locating) :
    exec .feedbackRecord s =
      .next (recordDone x (x :: s.fb.taken) rest more (checkLoad x l r.rawLoad.toInt (ctxOf s x)
        (stepsTaken x r m b (ctxOf s x) (recordMatched x r rest more newer s)))) := by
  rw [exec_feedbackRecord_loaded hmatch hstate hbody hload,
    positionLearned_of_ne (checked_state_ne hmatch.configured hlocating (by decide))]

/-! ## The load taken (R127 to R129) -/

theorem loadTaken_tare {raw : Int} {t : State} {a : Tare} (h : (loadTaken x l raw t).tare = some a) : t.tare = some a := by
  rw [← loadTaken_eq] at h
  exact takeFaults_tare x (overloadFaults l raw) (setCtx x ((ctxOf t x).takeLoad l (loadOf l raw)) t) a h

theorem checked_tare {a : Tare} {raw : Int}
    (h : (loadTaken x l raw (stepsTaken x r m b (ctxOf s x) (recordMatched x r rest more newer s))).tare = some a) :
    s.tare = some a :=
  takeFaults_tare x (findings r m b (ctxOf s x)) (recordMatched x r rest more newer s) a (loadTaken_tare h)

theorem loadTaken_pos (raw : Int) (t : State) : (ctxOf (loadTaken x l raw t) x).pos = (ctxOf t x).pos := by
  rw [← loadTaken_eq, takeFaults_pos, ctxOf_setCtx_same]
  rfl

theorem loadTaken_of_le {raw : Int} {t : State} (h : ¬ l.overload < rawToLoad l raw) : loadTaken x l raw t =
    setCtx x { ctxOf t x with
      ring := (rawToLoad l raw :: (ctxOf t x).ring).take 8
      filtered := some (average l ((rawToLoad l raw :: (ctxOf t x).ring).take 8)) } t :=
  if_neg h

theorem loadTaken_of_gt {raw : Int} {t : State} (h : l.overload < rawToLoad l raw) : loadTaken x l raw t =
    takeFault x (.overload (rawToLoad l raw)) (setCtx x { ctxOf t x with
      ring := (rawToLoad l raw :: (ctxOf t x).ring).take 8
      filtered := some (average l ((rawToLoad l raw :: (ctxOf t x).ring).take 8)) } t) :=
  if_pos h

theorem recordDone_ctx (taken : List Axis) (t : State) : ctxOf (recordDone x taken rest more t) x =
    { ctxOf t x with settle := (ctxOf t x).settle - 1 } :=
  ctxOf_setCtx_same ..

theorem recordDone_ev (taken : List Axis) (t : State) : (recordDone x taken rest more t).ev = t.ev := rfl

end

/-- The position that a record has learned is lost in the overload that it finds (R129, log entry 28). -/
theorem loadTakenLocating_of_overload {x : Axis} {l : LoadSection} {raw : Int} {t : State} (ho : l.overload < rawToLoad l raw)
    (h : (ctxOf t x).state = .parked ∨ (ctxOf t x).state = .faulted ∧ (ctxOf t x).pos = none) :
    (ctxOf (loadTakenLocating x l raw t) x).state = .faulted ∧ (ctxOf (loadTakenLocating x l raw t) x).pos = none ∧
      (loadTakenLocating x l raw t).ev = (loadTaken x l raw t).ev := by
  have hconfigured : (ctxOf t x).state ≠ .unconfigured := by
    rcases h with h | ⟨h, -⟩ <;> rw [h] <;> nofun
  have hfaulted : (ctxOf (loadTaken x l raw t) x).state = .faulted := by rw [loadTaken_state _ _ _ _ hconfigured, if_pos ho]
  rw [loadTakenLocating]
  rcases h with hparked | ⟨hstate, hpos⟩
  · rw [if_pos ⟨hparked, ho⟩, ctxOf_setCtx_same]
    exact ⟨hfaulted, rfl, rfl⟩
  · rw [if_neg (by rw [hstate]; exact fun h => nomatch h.1)]
    exact ⟨hfaulted, (loadTaken_pos raw t).trans hpos, rfl⟩

section
variable {x y : Axis} {r : FeedbackRecord} {t : State}

theorem positionLearned_tare : (positionLearned x r t).tare = t.tare := by
  unfold positionLearned
  split <;> rfl

theorem positionLearned_ctx_other (h : y ≠ x) : ctxOf (positionLearned x r t) y = ctxOf t y := by
  unfold positionLearned
  split
  · exact ctxOf_setCtx_other h _ t
  · rfl

theorem positionLearned_ev (h : (ctxOf t x).state = .locating) :
    (positionLearned x r t).ev = t.ev.raise (.axisLocated x r.actual.toInt) := by
  rw [positionLearned, if_pos h]
  rfl

/-- What a PARKED axis that is not under tare raises in an overload (R129). -/
theorem loadTaken_ev_of_gt {l : LoadSection} {raw : Int} (ho : l.overload < rawToLoad l raw) (hparked : (ctxOf t x).state = .parked)
    (htare : ∀ a, t.tare = some a → a.axis ≠ x ∧ (ctxOf t a.axis).state = .parked) :
    (loadTaken x l raw t).ev = t.ev.raise (.axisFaulted x (.overload (rawToLoad l raw))) := by
  rw [loadTaken_of_gt ho]
  generalize hc : { ctxOf t x with
    ring := (rawToLoad l raw :: (ctxOf t x).ring).take 8
    filtered := some (average l ((rawToLoad l raw :: (ctxOf t x).ring).take 8)) } = c
  have hstate : c.state = .parked := hc ▸ hparked
  rw [takeFault_of_kept (s := setCtx x c t) fun a ha => ⟨(htare a ha).1, by
    rw [ctxOf_setCtx_other (htare a ha).1]
    exact (htare a ha).2⟩, ctxOf_setCtx_same, faultEvents, hstate]
  rfl

end

/-- The axis under tare stands as it did, once a record of another axis has been matched and its position learned. -/
theorem learned_tare {s : State} {r : FeedbackRecord} {rest : List FeedbackRecord} {more : List (List FeedbackRecord)} {x : Axis}
    {newer : List OutEntry} (htare : ∀ a, s.tare = some a → a.axis ≠ x ∧ (ctxOf s a.axis).state = .parked) (a : Tare)
    (ha : (positionLearned x r (recordMatched x r rest more newer s)).tare = some a) :
    a.axis ≠ x ∧ (ctxOf (positionLearned x r (recordMatched x r rest more newer s)) a.axis).state = .parked := by
  rw [positionLearned_tare] at ha
  obtain ⟨hother, hstate⟩ := htare a ha
  rw [positionLearned_ctx_other hother, recordMatched, ctxOf_setCtx_other hother]
  exact ⟨hother, hstate⟩

/-- Settles O32: the load enters the ring, and an overload faults the axis, also one that has learned its position. -/
theorem loadIsRecordedAndOverloadFaults : Obligations.LoadIsRecordedAndOverloadFaults := by
  intro s r rest more x older m newer b l hmatch hstate hbody hload checked done
  have hexec := exec_feedbackRecord_loaded hmatch hstate hbody hload
  have hchecked := checked_state (r := r) (rest := rest) (more := more) (m := m) (b := b) (newer := newer) hmatch.configured
  have hlocated (hlocating : (ctxOf s x).state = .locating) : exec .feedbackRecord s =
      .next (done (loadTakenLocating x l r.rawLoad.toInt (positionLearned x r checked))) := by
    rw [hexec]
    refine congrArg (fun t => Host.Outcome.next (done t)) (checkLoad_locating hlocating ?_)
    by_cases hfindings : findings r m b (ctxOf s x) = []
    · rw [if_pos hfindings] at hchecked
      rw [positionLearned_state (hchecked.trans hlocating)]
      nofun
    · rw [if_neg hfindings] at hchecked
      rw [positionLearned_of_ne (by rw [hchecked]; nofun), hchecked]
      nofun
  refine ⟨fun hlocating hended => ?_, hlocated, fun hlocating hpos ho => ?_⟩
  · rw [exec_feedbackRecord_located hmatch hstate hbody hload hlocating]
    refine congrArg (fun t => Host.Outcome.next (done t)) (checkLoad_taken hlocating (hended.imp_right fun hother => ?_))
    exact ⟨hother.1, fun htared => hother.2 ⟨htared.1, htared.2.imp fun a ha => ⟨checked_tare ha.1, ha.2⟩⟩⟩
  · have hdone (t : State) : (ctxOf (done t) x).state = (ctxOf t x).state ∧ (ctxOf (done t) x).pos = (ctxOf t x).pos := by
      rw [recordDone_ctx]
      exact ⟨rfl, rfl⟩
    by_cases hfindings : findings r m b (ctxOf s x) = []
    · rw [if_pos hfindings] at hchecked
      have hmatched : checked = recordMatched x r rest more newer s := stepsTaken_nil hfindings
      have hunlearned : (ctxOf checked x).state = .locating := hchecked.trans hlocating
      have hparked : (ctxOf (positionLearned x r checked) x).state = .parked := positionLearned_state hunlearned
      obtain ⟨hfaulted, hunplaced, hev⟩ := loadTakenLocating_of_overload ho (.inl hparked)
      obtain ⟨hstate, hpos⟩ := hdone (loadTakenLocating x l r.rawLoad.toInt (positionLearned x r checked))
      refine ⟨_, hlocated hlocating, hstate.trans hfaulted, hpos.trans hunplaced, fun _ htare => ?_⟩
      have hsame (t : State) : (done t).ev = t.ev := rfl
      rw [hsame, hev, loadTaken_ev_of_gt ho hparked (hmatched ▸ learned_tare htare), positionLearned_ev hunlearned, hmatched]
      rfl
    · rw [if_neg hfindings] at hchecked
      have hlearned : positionLearned x r checked = checked := positionLearned_of_ne (by rw [hchecked]; nofun)
      have hunplaced : (ctxOf checked x).pos = none :=
        (takeFaults_pos x (findings r m b (ctxOf s x)) (recordMatched x r rest more newer s)).trans
          ((congrArg AxisCtx.pos (recordMatched_ctx newer)).trans hpos)
      obtain ⟨hfaulted, hunplaced, -⟩ := loadTakenLocating_of_overload ho (.inr ⟨hchecked, hunplaced⟩)
      obtain ⟨hstate, hpos⟩ := hdone (loadTakenLocating x l r.rawLoad.toInt (positionLearned x r checked))
      rw [hlearned] at hstate hpos
      refine ⟨_, hlocated hlocating, ?_, ?_, fun hnone => absurd hnone hfindings⟩
      · rw [hlearned]
        exact hstate.trans hfaulted
      · rw [hlearned]
        exact hpos.trans hunplaced

end Sys2Proof.Machine
end

section
/-! SUPPORT. The slack and snag checks, and the tare samples (R119, R124, R129 to R135). -/

namespace Sys2Proof.Machine

/-- Of two changes of one context the later one stands. -/
theorem setCtx_setCtx (x : Axis) (c d : AxisCtx) (s : State) : setCtx x d (setCtx x c s) = setCtx x d s := by
  simp only [setCtx, withContexts, tset_tset]

section
variable {s : State} {x : Axis} {l : LoadSection} {f : Int}

/-! ## Slack and snag (R129 to R131) -/

/-- A stop that takes the capture permission, of a TRACKING axis (R25, R26). -/
theorem stopBetween_forGood {cause : StopCause} (hstate : (ctxOf s x).state = .tracking) (hdest : cause.destination = .held)
    (hcapture : cause.recapturable = false) : stopBetween x cause s = stoppedForGood x cause s := by
  rw [stopBetween, if_pos hstate, AxisCtx.stopped, hdest, hcapture, Bool.and_false]
  rfl

theorem slackSnag_slack {step : Int} (hstate : (ctxOf s x).state = .tracking) (hfiltered : (ctxOf s x).filtered = some f)
    (hslack : step < 0 ∧ f < l.slack) : slackSnag x l step s = stoppedForGood x .slack s := by
  rw [← stopBetween_forGood hstate rfl rfl]
  unfold slackSnag
  extract_lets c
  rw [hstate, hfiltered]
  exact if_pos hslack

/-- The reference load that the axis has, or takes from this record (R130). -/
theorem slackSnag_snag {step : Int} (hstate : (ctxOf s x).state = .tracking) (hfiltered : (ctxOf s x).filtered = some f)
    (hslack : ¬ (step < 0 ∧ f < l.slack)) : slackSnag x l step s =
      if 0 < l.snagBand ∧ l.snagBand < mag (f - (ctxOf s x).reference.getD f) then stoppedForGood x .snag s
      else setCtx x { ctxOf s x with reference := some ((ctxOf s x).reference.getD f) } s := by
  have htracking : (ctxOf (setCtx x { ctxOf s x with reference := some ((ctxOf s x).reference.getD f) } s) x).state = .tracking := by
    rw [ctxOf_setCtx_same]
    exact hstate
  have hstopped : stopBetween x .snag (setCtx x { ctxOf s x with reference := some ((ctxOf s x).reference.getD f) } s) =
      stoppedForGood x .snag s := by
    rw [stopBetween_forGood htracking rfl rfl, stoppedForGood, ctxOf_setCtx_same, setCtx_setCtx]
    rfl
  rw [← hstopped]
  unfold slackSnag
  extract_lets c
  rw [hstate, hfiltered]
  exact if_neg hslack

/-! ## A load that faults nothing -/

/-- A load that leaves its axis unfaulted was no overload, and was taken after steps 1 to 4 that found nothing. -/
theorem loadTaken_unfaulted {r : FeedbackRecord} {rest : List FeedbackRecord} {more : List (List FeedbackRecord)}
    {newer : List OutEntry} {m : OutEntry} {b : AxisBody} {raw : Int} (hconfigured : (ctxOf s x).state ≠ .unconfigured)
    (h : (ctxOf (loadTaken x l raw (stepsTaken x r m b (ctxOf s x) (recordMatched x r rest more newer s))) x).state ≠ .faulted) :
    findings r m b (ctxOf s x) = [] ∧ ¬ l.overload < rawToLoad l raw := by
  have hchecked := checked_state (r := r) (rest := rest) (more := more) (m := m) (b := b) (newer := newer) hconfigured
  have hne : (ctxOf (stepsTaken x r m b (ctxOf s x) (recordMatched x r rest more newer s)) x).state ≠ .unconfigured :=
    checked_state_ne hconfigured hconfigured (by decide)
  rw [loadTaken_state _ _ _ _ hne] at h
  have hload : ¬ l.overload < rawToLoad l raw := fun ho => h (if_pos ho)
  rw [if_neg hload, hchecked] at h
  exact ⟨by_contra fun hfindings => h (if_neg hfindings), hload⟩

/-- What such a load keeps of the context that the record found. -/
theorem loadTaken_keeps {r : FeedbackRecord} {rest : List FeedbackRecord} {more : List (List FeedbackRecord)}
    {newer : List OutEntry} {raw : Int} (hload : ¬ l.overload < rawToLoad l raw) :
    (ctxOf (loadTaken x l raw (recordMatched x r rest more newer s)) x).reference = (ctxOf s x).reference ∧
      (ctxOf (loadTaken x l raw (recordMatched x r rest more newer s)) x).state = (ctxOf s x).state := by
  rw [loadTaken_of_le hload, ctxOf_setCtx_same, recordMatched_ctx]
  exact ⟨rfl, rfl⟩

end

/-- Settles O33: a slack cable, a snag, or the reference load kept. -/
theorem slackAndSnagStopTracking : Obligations.SlackAndSnagStopTracking := by
  intro s r rest more x older m newer b l f hmatch hstate hbody hload loaded ref done hloaded hfiltered
  obtain ⟨hfindings, hover⟩ := loadTaken_unfaulted hmatch.configured (by rw [hloaded]; nofun)
  have hmatched := stepsTaken_nil (x := x) (t := recordMatched x r rest more newer s) hfindings
  have href : (ctxOf loaded x).reference = (ctxOf s x).reference := by
    change (ctxOf (loadTaken x l r.rawLoad.toInt (stepsTaken x r m b (ctxOf s x) (recordMatched x r rest more newer s))) x).reference = _
    rw [hmatched]
    exact (loadTaken_keeps hover).1
  have hexec : exec .feedbackRecord s = .next (done (slackSnag x l (ctxOf s x).step loaded)) := by
    rw [exec_feedbackRecord_located hmatch (by rw [hstate]; nofun) hbody hload (by rw [hstate]; nofun), checkLoad, loadTaken_eq]
    simp only [hstate]
    rfl
  refine ⟨fun hslack => ?_, fun hslack hsnag => ?_, fun hslack hsnag => ?_⟩
  · rw [hexec, slackSnag_slack hloaded hfiltered hslack]
  · rw [hexec, slackSnag_snag hloaded hfiltered hslack, href, if_pos hsnag]
  · rw [hexec, slackSnag_snag hloaded hfiltered hslack, href, if_neg hsnag]

/-! ## Tare samples (R134, R135) -/

section
variable {s : State} {x : Axis} {t : Tare} {raw : Int}

theorem tareSample_counted (ht : s.tare = some t) (hx : t.axis = x) (hstate : (ctxOf s x).state = .parked) (hcount : t.count < 15) :
    tareSample x raw s = { s with tare := some { axis := x, stage := 1, count := t.count + 1, sum := t.sum + raw } } := by
  have hroom : t.count + 1 < Config.tareSamples := by
    change t.count + 1 < 16
    omega
  rw [tareSample, ht]
  dsimp only
  rw [if_pos ⟨hx, hstate⟩, if_pos hroom, hx]

theorem tareSample_completed (ht : s.tare = some t) (hx : t.axis = x) (hstate : (ctxOf s x).state = .parked) (hcount : t.count = 15) :
    tareSample x raw s = completeTare x (t.sum + raw) s := by
  have hfull : ¬ t.count + 1 < Config.tareSamples := by
    change ¬ t.count + 1 < 16
    omega
  rw [tareSample, ht]
  dsimp only
  rw [if_pos ⟨hx, hstate⟩, if_neg hfull]

theorem completeTare_eq {b : AxisBody} {l : LoadSection} (sum : Int) (hbody : bodyOf s x = some b) (hload : b.load = some l) :
    completeTare x sum s = raise (.tareDone x (sum / 16)) (setCtx x { ctxOf s x with ring := [], filtered := none }
      { s with
        tare := none
        axisTab := tset s.axisTab x { tget s.axisTab x with
          body := some { b with load := some { l with tareOffset := sum / 16 } } } }) := by
  have hoffset : (tget s.axisTab x).body.map (AxisBody.withOffset (sum / 16)) =
      some { b with load := some { l with tareOffset := sum / 16 } } := by
    change (bodyOf s x).map _ = _
    rw [hbody, Option.map_some, AxisBody.withOffset, hload, Option.map_some]
  rw [completeTare, hoffset]
  rfl

end

/-- Settles O34: a sample counted, or the sixteenth, which stores the offset. -/
theorem tareSamplesCompleteAtSixteen : Obligations.TareSamplesCompleteAtSixteen := by
  intro s r rest more x older m newer b l t hmatch hstate hbody hload ht hx hfindings hover loaded sum done
  have hkept := loadTaken_keeps (s := s) (x := x) (r := r) (rest := rest) (more := more) (newer := newer)
    (Int.not_lt.mpr hover)
  have hexec : exec .feedbackRecord s = .next (done (tareSample x r.rawLoad.toInt loaded)) := by
    rw [exec_feedbackRecord_located hmatch (by rw [hstate]; nofun) hbody hload (by rw [hstate]; nofun), checkLoad, loadTaken_eq,
      stepsTaken_nil hfindings]
    simp only [hstate]
    rfl
  have hloaded : loaded = setCtx x { ctxOf (recordMatched x r rest more newer s) x with
      ring := (rawToLoad l r.rawLoad.toInt :: (ctxOf (recordMatched x r rest more newer s) x).ring).take 8
      filtered := some (average l ((rawToLoad l r.rawLoad.toInt :: (ctxOf (recordMatched x r rest more newer s) x).ring).take 8)) }
      (recordMatched x r rest more newer s) := loadTaken_of_le (Int.not_lt.mpr hover)
  have htare : loaded.tare = some t := by
    rw [hloaded]
    exact ht
  have htab : loaded.axisTab = s.axisTab := by
    rw [hloaded]
    rfl
  refine ⟨fun hcount => ?_, fun hcount => ?_⟩
  · rw [hexec, tareSample_counted htare hx (hkept.2.trans hstate) hcount]
  · rw [hexec, tareSample_completed htare hx (hkept.2.trans hstate) hcount,
      completeTare_eq _ ((bodyOf_congr htab x).trans hbody) hload, htab]

end Sys2Proof.Machine
end

section
/-! SUPPORT. The interlock lines one at a time (R84 to R88), the event unit (R174 to R178), and the report timer (R179 to R181). -/

namespace Sys2Proof.Machine

/-! ## A line settles (R85, R86, R88) -/

section
variable {l : Line} {s : State} {level : Level}

theorem settleLine_of_pending (hpending : (tget s.lines l).pending = some level) : settleLine l s =
    raise (.interlockChanged l level (assertionOf (tget s.lineTab l) level))
      { s with lines := tset s.lines l { tget s.lines l with settled := .known level, pending := none } } := by
  rw [settleLine, hpending]

theorem settleIfDue_of_not_pending (hpending : (tget s.lines l).pending = none) : settleIfDue l s = s := by
  rw [settleIfDue, settleDue, hpending]
  rfl

/-- A due check settles the line at its pending level, once the settle time has run out. -/
theorem settleIfDue_of_pending (hpending : (tget s.lines l).pending = some level) : settleIfDue l s =
    if (tget s.lines l).since + settleTicks s l ≤ s.now then
      raise (.interlockChanged l level (assertionOf (tget s.lineTab l) level))
        { s with lines := tset s.lines l { tget s.lines l with settled := .known level, pending := none } }
    else s := by
  rw [settleIfDue, settleLine_of_pending hpending, settleDue, hpending]
  simp only [Option.isSome_some, Bool.true_and, decide_eq_true_eq]

theorem settledNow_of_not_pending (hpending : (tget s.lines l).pending = none) : settledNow l s = s := by
  rw [settledNow, hpending]

theorem settledNow_of_pending (hpending : (tget s.lines l).pending = some level) : settledNow l s =
    if (tget s.lines l).since + settleTicks s l ≤ s.now then
      raise (.interlockChanged l level (assertionOf (tget s.lineTab l) level))
        { s with lines := tset s.lines l { tget s.lines l with settled := .known level, pending := none } }
    else s := by
  rw [settledNow, hpending]

/-- The specification's reading of a line that may have settled is the model's check. -/
theorem settleIfDue_eq_settledNow (l : Line) (s : State) : settleIfDue l s = settledNow l s := by
  cases hpending : (tget s.lines l).pending with
  | none => rw [settleIfDue_of_not_pending hpending, settledNow_of_not_pending hpending]
  | some level => rw [settleIfDue_of_pending hpending, settledNow_of_pending hpending]

theorem settleTicks_of_erased (hbody : (tget s.lineTab l).body = none) : settleTicks s l = 0 := by
  rw [settleTicks, hbody]

theorem settleTicks_of_body {b : InterlockBody} (hbody : (tget s.lineTab l).body = some b) :
    settleTicks s l = b.settleTime * 25000 := by
  rw [settleTicks, hbody]
  rfl

/-- A line settles at once exactly when no entry gives it a settle time (R86). -/
theorem settleTicks_eq_zero (hzero : ∀ b, (tget s.lineTab l).body = some b → b.settleTime = 0) : settleTicks s l = 0 := by
  cases hbody : (tget s.lineTab l).body with
  | none => exact settleTicks_of_erased hbody
  | some b => rw [settleTicks_of_body hbody, hzero b hbody, Nat.zero_mul]

end

theorem assertionOf_of_erased {e : InterlockEntry} (hbody : e.body = none) (level : Level) : assertionOf e level = .noEntry := by
  rw [assertionOf, hbody]

theorem assertionOf_of_body {e : InterlockEntry} {b : InterlockBody} (hbody : e.body = some b) (level : Level) :
    assertionOf e level = if level = b.activeLevel then .asserted else .deasserted := by
  rw [assertionOf, hbody]

/-! ## A raw level changes (R85) -/

section
variable {l : Line} {s : State} {level : Level}

theorem exec_interlockRawChange_same (moment : Nat) (h : (tget s.lines l).raw = level) :
    exec (.interlockRawChange moment l level) s = .next (advanceTo moment s) := by
  change execInterlockRawChange moment l level s = _
  exact if_pos h

theorem exec_interlockRawChange_changed (moment : Nat) (h : (tget s.lines l).raw ≠ level) :
    exec (.interlockRawChange moment l level) s = .next (settleIfDue l (rawChanged l level (advanceTo moment s))) := by
  change execInterlockRawChange moment l level s = _
  exact if_neg h

/-- A raw level that goes back to the settled one cancels the pending level. -/
theorem rawChanged_back (h : (tget s.lines l).settled = .known level) :
    rawChanged l level s = { s with lines := tset s.lines l { tget s.lines l with raw := level, pending := none } } := by
  rw [rawChanged]
  dsimp only
  rw [if_pos h]

/-- Any other raw level becomes the pending one, held from now. -/
theorem rawChanged_away (h : (tget s.lines l).settled ≠ .known level) : rawChanged l level s =
    { s with lines := tset s.lines l (LineState.mk level (tget s.lines l).settled (some level) s.now) } := by
  rw [rawChanged]
  rw [if_neg h]

/-- A level pending from this moment waits for a settle time that is not 0. -/
theorem settleIfDue_timed (settled : Settled) (h : 0 < settleTicks s l) :
    settleIfDue l { s with lines := tset s.lines l (LineState.mk level settled (some level) s.now) } =
      { s with lines := tset s.lines l (LineState.mk level settled (some level) s.now) } := by
  rw [settleIfDue_of_pending (level := level) (by rw [tget_tset_same]), if_neg]
  have hticks : settleTicks { s with lines := tset s.lines l (LineState.mk level settled (some level) s.now) } l = settleTicks s l :=
    rfl
  rw [tget_tset_same, hticks]
  dsimp only
  omega

/-- A level pending from this moment settles at once when the settle time is 0. -/
theorem settleIfDue_at_once (settled : Settled) (h : settleTicks s l = 0) :
    settleIfDue l { s with lines := tset s.lines l (LineState.mk level settled (some level) s.now) } =
      raise (.interlockChanged l level (assertionOf (tget s.lineTab l) level))
        { s with lines := tset s.lines l (LineState.mk level (.known level) none s.now) } := by
  rw [settleIfDue_of_pending (level := level) (by rw [tget_tset_same]), if_pos, tget_tset_same, tset_tset]
  have hticks : settleTicks { s with lines := tset s.lines l (LineState.mk level settled (some level) s.now) } l = settleTicks s l :=
    rfl
  rw [tget_tset_same, hticks, h]
  exact Nat.le_refl s.now

end

/-! ## The queue by class (R178) -/

/-- In a queue ordered by class, an event enters behind its own class and before the later ones. -/
theorem exists_insertByClass (e : QueuedEvent) {q : List QueuedEvent} (h : q.Pairwise (fun a b => a.rank ≤ b.rank)) :
    ∃ before behind, q = before ++ behind ∧ (∀ y ∈ before, y.rank ≤ e.rank) ∧ (∀ y ∈ behind, e.rank < y.rank) ∧
      insertByClass e q = before ++ e :: behind := by
  induction q with
  | nil => exact ⟨[], [], rfl, by simp, by simp, rfl⟩
  | cons x q ih =>
    obtain ⟨hx, hq⟩ := List.pairwise_cons.mp h
    by_cases hle : x.rank ≤ e.rank
    · obtain ⟨before, behind, rfl, hbefore, hbehind, hinsert⟩ := ih hq
      refine ⟨x :: before, behind, rfl, List.forall_mem_cons.mpr ⟨hle, hbefore⟩, hbehind, ?_⟩
      rw [insertByClass, if_pos hle, hinsert, List.cons_append]
    · refine ⟨[], x :: q, rfl, by simp, List.forall_mem_cons.mpr ⟨by omega, fun y hy => ?_⟩, ?_⟩
      · have := hx y hy
        omega
      · rw [insertByClass, if_neg hle, List.nil_append]

/-- The last event of an ordered queue is of the largest class present. -/
theorem largestClass_of_ordered {q : List QueuedEvent} {last : QueuedEvent}
    (h : (q ++ [last]).Pairwise (fun a b => a.rank ≤ b.rank)) : largestClass (q ++ [last]) = last.rank := by
  induction q with
  | nil => exact Nat.max_zero last.rank
  | cons x q ih =>
    rw [List.cons_append] at h
    obtain ⟨hx, hq⟩ := List.pairwise_cons.mp h
    rw [List.cons_append, largestClass, ih hq]
    exact Nat.max_eq_right (hx last (by simp))

/-- The newest event of the last event's class is the last event. -/
theorem dropNewest_last (q : List QueuedEvent) (last : QueuedEvent) : dropNewest last.rank (q ++ [last]) = q := by
  induction q with
  | nil => simp [dropNewest]
  | cons x q ih =>
    have hpresent : (q ++ [last]).any (fun y => y.rank == last.rank) = true :=
      List.any_eq_true.mpr ⟨last, by simp, beq_self_eq_true last.rank⟩
    rw [List.cons_append, dropNewest, if_pos hpresent, ih]

/-! ## The event unit takes an event (R175, R177, R178) -/

section
variable {ev : Event} {u : EventUnit} {q last : QueuedEvent}

theorem raise_unmasked (h : u.masks ev.cls = false) : u.raise ev = u.offer { event := ev, count := 1 } := by
  rw [EventUnit.raise, h]
  rfl

theorem raise_discarded (h : u.masks ev.cls = true) (hlatch : ev.cls.latch = none) : u.raise ev = u := by
  rw [EventUnit.raise, h, hlatch]
  rfl

theorem raise_latched {k : Fin 4} (h : u.masks ev.cls = true) (hlatch : ev.cls.latch = some k) :
    u.raise ev = u.latchEvent k ev := by
  rw [EventUnit.raise, h, hlatch]
  rfl

theorem latchEvent_empty {k : Fin 4} (h : tget u.latches k = none) :
    u.latchEvent k ev = { u with latches := tset u.latches k (some { event := ev, count := 1 }) } := by
  rw [EventUnit.latchEvent, h]

theorem latchEvent_held {k : Fin 4} (h : tget u.latches k = some q) :
    u.latchEvent k ev = { u with latches := tset u.latches k (some { event := ev, count := min (q.count + 1) 255 }) } := by
  rw [EventUnit.latchEvent, h]

/-- The latches belong to the classes FAULT, STOP, INPUT and OPERATION, in order (R177). -/
theorem latch_eq_some_iff (c : EventClass) (k : Fin 4) : c.latch = some k ↔ c.number = k.val + 1 := by
  revert k
  cases c <;> decide

theorem offer_of_room (h : u.queue.length < 32) : u.offer q = { u with queue := insertByClass q u.queue } := by
  rw [EventUnit.offer]
  exact if_pos h

theorem offer_full_above (hfull : u.queue.length = 32) (hqueue : u.queue = u.queue.dropLast ++ [last]) (hu : u.Lawful)
    (habove : q.rank < last.rank) :
    u.offer q = { u with queue := insertByClass q u.queue.dropLast, lost := true, lostSets := u.lostSets + 1 } := by
  have hlargest : largestClass u.queue = last.rank := by
    rw [hqueue]
    exact largestClass_of_ordered (hqueue ▸ hu.ordered)
  have hdropped : dropNewest last.rank u.queue = u.queue.dropLast := by
    conv_lhs => rw [hqueue]
    exact dropNewest_last _ _
  rw [EventUnit.offer, if_neg (by simp [Config.eventRoom, hfull]), hlargest, if_pos habove, hdropped, EventUnit.setLost]

theorem offer_full_below (hfull : u.queue.length = 32) (hqueue : u.queue = u.queue.dropLast ++ [last]) (hu : u.Lawful)
    (hbelow : last.rank ≤ q.rank) : u.offer q = { u with lost := true, lostSets := u.lostSets + 1 } := by
  have hlargest : largestClass u.queue = last.rank := by
    rw [hqueue]
    exact largestClass_of_ordered (hqueue ▸ hu.ordered)
  rw [EventUnit.offer, if_neg (by simp [Config.eventRoom, hfull]), hlargest, if_neg (by omega), EventUnit.setLost]

end

/-! ## The report (R179 to R181) -/

theorem summaryOf_eq (waiting : Nat) (s : State) : summaryOf waiting s =
    { mode := s.req.mode
      active := s.active.map CueGroup.number
      staged := s.staged.map CueGroup.number
      lost := s.ev.lost
      dropped := s.req.dropped
      counts := [AxisState.unconfigured, .locating, .parked, .held, .tracking, .stopping, .faulted].map
        (fun a => (s.ctx.toList.filter (fun c => c.state == a)).length)
      levels := allLines.map (fun l => (tget s.lines l).settled)
      late := s.cyc.late
      waiting := waiting } := by
  have hlevels : s.lines.toList.map LineState.settled = allLines.map (fun l => (tget s.lines l).settled) := by
    apply List.ext_getElem
    · simp [allLines]
    · intro i _ _
      simp [allLines, tget]
  rw [summaryOf, hlevels]
  rfl

theorem exec_reportTimerExpiry_occupied {s : State} (h : s.up.slot ≠ none) :
    exec .reportTimerExpiry s = .next (restartReportTimer (advanceTo s.ev.reportDue s)) := by
  change execReportTimerExpiry s = _
  exact if_neg fun hfree => h (Option.isNone_iff_eq_none.mp hfree)

theorem exec_reportTimerExpiry_free {s : State} (h : s.up.slot = none) :
    exec .reportTimerExpiry s = .next (buildReport (restartReportTimer (advanceTo s.ev.reportDue s))) := by
  change execReportTimerExpiry s = _
  exact if_pos (Option.isNone_iff_eq_none.mpr h)

theorem handReport_eq (f : ReportFrame) (s : State) : handReport f s = { s with
    up := if s.up.tx = none ∧ s.up.queue = [] then { s.up with tx := some (.report f) }
      else { s.up with slot := some f } } := by
  rw [handReport]
  simp only [Option.isNone_iff_eq_none, List.isEmpty_iff]
  split <;> rfl

/-- Settles O35: a change of the raw level against the level settled, and the held time against the settle time. -/
theorem lineLevelsSettle : Obligations.LineLevelsSettle := by
  unfold Obligations.LineLevelsSettle
  refine ⟨fun moment l level s => ⟨fun h => exec_interlockRawChange_same moment h, fun hraw hback => ?_, fun hraw haway => ⟨?_, ?_⟩⟩,
    fun l level s hpending => ⟨?_, fun hbody => ⟨settleTicks_of_erased hbody, assertionOf_of_erased hbody level⟩,
      fun b hbody => ⟨settleTicks_of_body hbody, fun h => ?_, fun h => ?_⟩⟩⟩
  · rw [exec_interlockRawChange_changed moment hraw, rawChanged_back (s := advanceTo moment s) hback, settleIfDue_of_not_pending]
    · rfl
    · rw [tget_tset_same]
  · intro b hbody hlong
    have hticks : 0 < settleTicks (advanceTo moment s) l := by
      rw [settleTicks_of_body (s := advanceTo moment s) hbody]
      omega
    rw [exec_interlockRawChange_changed moment hraw, rawChanged_away (s := advanceTo moment s) haway,
      settleIfDue_timed (s := advanceTo moment s) _ hticks]
    rfl
  · intro hzero
    rw [exec_interlockRawChange_changed moment hraw, rawChanged_away (s := advanceTo moment s) haway,
      settleIfDue_at_once (s := advanceTo moment s) _ (settleTicks_eq_zero (s := advanceTo moment s) hzero)]
    rfl
  · change execInterlockSettle l s = _
    rw [execInterlockSettle, hpending]
    exact congrArg Host.Outcome.next
      (settleLine_of_pending (s := advanceTo ((tget s.lines l).since + settleTicks s l) s) hpending)
  · rw [assertionOf_of_body hbody, if_pos h]
  · rw [assertionOf_of_body hbody, if_neg h]

/-- Settles O36: the mask, the latch and the queue by its fill; an ordered queue is cut where the event enters. -/
theorem eventUnitTakesEvents : Obligations.EventUnitTakesEvents := by
  unfold Obligations.EventUnitTakesEvents
  refine ⟨fun ev u => ⟨raise_unmasked, raise_discarded, fun k hmask hlatch => ⟨fun hempty => ?_, fun q hheld => ?_⟩,
    latch_eq_some_iff ev.cls⟩, fun q u hu => ⟨fun hroom => ?_, fun last hfull hlast => ?_⟩⟩
  · rw [raise_latched hmask hlatch, latchEvent_empty hempty]
  · rw [raise_latched hmask hlatch, latchEvent_held hheld]
  · obtain ⟨before, behind, hqueue, hbefore, hbehind, hinsert⟩ := exists_insertByClass q hu.ordered
    exact ⟨before, behind, hqueue, hbefore, hbehind, by rw [offer_of_room hroom, hinsert]⟩
  · have hqueue : u.queue = u.queue.dropLast ++ [last] := (List.dropLast_append_getLast? last hlast).symm
    refine ⟨fun habove => ?_, fun hbelow => offer_full_below hfull hqueue hu hbelow⟩
    obtain ⟨before, behind, hcut, hbefore, hbehind, hinsert⟩ :=
      exists_insertByClass q (hu.ordered.sublist (List.dropLast_sublist u.queue))
    exact ⟨before, behind, hcut, hbefore, hbehind, by rw [offer_full_above hfull hqueue hu habove, hinsert]⟩

/-- Settles O37: the report timer restarted, and the report built when its slot is empty. -/
theorem reportTimerBuildsReport : Obligations.ReportTimerBuildsReport := by
  unfold Obligations.ReportTimerBuildsReport
  refine fun s => ⟨fun hslot => exec_reportTimerExpiry_occupied hslot, fun hslot => ?_⟩
  rw [exec_reportTimerExpiry_free hslot, buildReport, handReport_eq, reportFrame, summaryOf_eq]
  rfl

end Sys2Proof.Machine
end

section
/-! SUPPORT. The request handler: one answer to each request (R160, R162, R163), and the requests that read (R38, R71, R93, R170). -/

namespace Sys2Proof.Machine

/-! ## The command of a request's kind (section 10.8) -/

theorem requestStep_of_unknown {k : Byte} (h : ¬ (1 ≤ k.toNat ∧ k.toNat ≤ 20)) : requestStep k = .unknownRequest := by
  unfold requestStep
  split
  case h_21 => rfl
  all_goals omega

theorem requestStep_eq_restart {k : Byte} (h : requestStep k = .restart) : k = 8 := by
  unfold requestStep at h
  split at h
  case h_8 hk => exact BitVec.eq_of_toNat_eq hk
  all_goals exact absurd h (by simp)

/-- An accepted request of any other kind than RESTART leaves the answers that wait alone. -/
theorem Accepts.answers_frames {c : Instr} {s u : State} (h : Accepts s c u) :
    u.req.answers = (if c = .restart then [] else s.req.answers) ∧ u.req.frames = s.req.frames := by
  cases h with
  | restart => simp [restartOwners]
  | lockAxis hc | lockPair hc | lockLine hc => rcases hc with rfl | rfl <;> simp
  | read hc => rcases hc with rfl | rfl | rfl <;> simp
  | mode | setMask | halt | clearFault | putPair | putLine | putAxis | eraseAxis | erasePair | eraseLine | putSettings
  | tare | untare | stage | take | drop => simp

section
variable {e : Envelope} {rest : List Envelope} {more : List (List Envelope)} {s : State}

/-- The command of a known kind carries out the request in front. -/
theorem exec_requestStep_known (h : FrontRequest e rest more s) (hlow : 1 ≤ e.kind.toNat) (hhigh : e.kind.toNat ≤ 20) :
    ∃ t, exec (requestStep e.kind) s = .next t ∧ Carried (requestStep e.kind) e (withoutFront rest more s) t := by
  have hkind : e.kind = BitVec.ofNat 8 e.kind.toNat := by rw [BitVec.ofNat_toNat, BitVec.setWidth_eq]
  generalize e.kind.toNat = k at *
  rw [hkind]
  interval_cases k
  · exact ⟨_, carryOut_front runMode h hkind, carried_mode e _⟩
  · exact ⟨_, carryOut_front runGetEntry h hkind, carried_getEntry e _⟩
  · exact ⟨_, carryOut_front runGetAxis h hkind, carried_getAxis e _⟩
  · exact ⟨_, carryOut_front runGetSettings h hkind, carried_getSettings e _⟩
  · exact ⟨_, carryOut_front runSetMask h hkind, carried_setMask e _⟩
  · exact ⟨_, carryOut_front runHaltAxes h hkind, carried_haltAxes e _⟩
  · exact ⟨_, carryOut_front runClearFault h hkind, carried_clearFault e _⟩
  · exact ⟨_, carryOut_front runRestart h hkind, carried_restart e _⟩
  · exact ⟨_, carryOut_front runPutPair h hkind, carried_putPair e _⟩
  · exact ⟨_, carryOut_front runPutInterlock h hkind, carried_putInterlock e _⟩
  · exact ⟨_, carryOut_front runPutAxis h hkind, carried_putAxis e _⟩
  · exact ⟨_, carryOut_front runEraseEntry h hkind, carried_eraseEntry e _⟩
  · exact ⟨_, carryOut_front runPutSettings h hkind, carried_putSettings e _⟩
  · exact ⟨_, carryOut_front (runLock true) h hkind, carried_lock e _ (.inl rfl) true⟩
  · exact ⟨_, carryOut_front (runLock false) h hkind, carried_lock e _ (.inr rfl) false⟩
  · exact ⟨_, carryOut_front runTare h hkind, carried_tare e _⟩
  · exact ⟨_, carryOut_front runUntare h hkind, carried_untare e _⟩
  · exact ⟨_, carryOut_front runStageCue h hkind, carried_stageCue e _⟩
  · exact ⟨_, carryOut_front runTakeCue h hkind, carried_takeCue e _⟩
  · exact ⟨_, carryOut_front runDropCue h hkind, carried_dropCue e _⟩

theorem exec_unknownRequest (h : FrontRequest e rest more s) (hkind : ¬ (1 ≤ e.kind.toNat ∧ e.kind.toNat ≤ 20)) :
    exec .unknownRequest s = .next (answered e rest more .unknownRequest .empty s) := by
  change execUnknownRequest s = _
  rw [execUnknownRequest, nextRequest_front h]
  exact if_neg (by simpa [knownKind] using hkind)

/-! ## The requests that read -/

theorem decodeEntryRef_axis (b1 b0 : Byte) : decodeEntryRef [1, b1, b0] = .ok (.axisTable, (word16 b1 b0).toNat) := rfl
theorem decodeEntryRef_pair (b1 b0 : Byte) : decodeEntryRef [2, b1, b0] = .ok (.pairTable, (word16 b1 b0).toNat) := rfl
theorem decodeEntryRef_line (b1 b0 : Byte) : decodeEntryRef [3, b1, b0] = .ok (.lineTable, (word16 b1 b0).toNat) := rfl

/-- GET_ENTRY in every mode (R71, R93, R170). -/
theorem exec_getEntry {ref : TableCode × Nat} (h : FrontRequest e rest more s) (hkind : e.kind = 2)
    (hdecoded : decodeEntryRef e.body = .ok ref) :
    exec .getEntry s = .next (judgeGetEntry e ref (withoutFront rest more s)) :=
  (carryOut_front runGetEntry h hkind).trans (congrArg Host.Outcome.next (judged_of_admits hdecoded rfl))

/-- GET_AXIS in every mode (R38). -/
theorem exec_getAxis {n : Byte} (h : FrontRequest e rest more s) (hkind : e.kind = 3) (hbody : e.body = [n]) :
    exec .getAxis s = .next (indexed 128 e n.toNat (fun x t =>
      answer e .accepted (.context (ctxOf t x) ((loadOfAxis t x).map LoadSection.tareOffset)) t) (withoutFront rest more s)) :=
  (carryOut_front runGetAxis h hkind).trans
    (congrArg Host.Outcome.next (judged_of_admits (decoded := decodeByte e.body) (hbody ▸ rfl) rfl))

/-- An index that its table holds is judged by the request itself. -/
theorem exec_indexed {cmd : Instr} {n k : Nat} {own : Fin n → State → State} {i : Fin n} {t : State}
    (hexec : exec cmd s = .next (indexed n e k own (withoutFront rest more s))) (hi : i.val = k)
    (hown : own i (withoutFront rest more s) = t) : exec cmd s = .next t := by
  rw [hexec, indexed_of_val hi, hown]

end

/-- Settles O38: what carrying out a request of any kind can make of the part, with the one answer it queues. -/
theorem requestIsAnsweredOnce : Obligations.RequestIsAnsweredOnce := by
  intro e rest more s hfront
  by_cases hknown : 1 ≤ e.kind.toNat ∧ e.kind.toNat ≤ 20
  · obtain ⟨t, hexec, hcarried⟩ := exec_requestStep_known hfront hknown.1 hknown.2
    refine ⟨t, ?_⟩
    cases hcarried with
    | refused result body hrefused =>
      exact ⟨result, body, hexec, rfl, by rw [if_neg fun h => hrefused h.2]; rfl, fun _ => .inl rfl, fun h => absurd hknown h⟩
    | shielded table index =>
      exact ⟨.isProtected, .empty, hexec, rfl, by rw [if_neg fun h => nomatch h.2]; rfl,
        fun _ => .inr ⟨rfl, table, index, rfl⟩, fun h => absurd hknown h⟩
    | accepted body u haccept =>
      obtain ⟨hanswers, hframes⟩ := haccept.answers_frames
      refine ⟨.accepted, body, hexec, hframes, ?_, fun h => absurd rfl h, fun h => absurd hknown h⟩
      have hrestart : requestStep e.kind = .restart ↔ e.kind = 8 ∧ Result.accepted = .accepted :=
        ⟨fun h => ⟨requestStep_eq_restart h, rfl⟩, fun h => by rw [h.1]; rfl⟩
      rw [answer_answers, hanswers]
      simp only [hrestart]
      rfl
  · rw [requestStep_of_unknown hknown]
    refine ⟨_, .unknownRequest, .empty, exec_unknownRequest hfront hknown, rfl, ?_, fun _ => .inl rfl, fun _ => rfl⟩
    rw [if_neg fun h => nomatch h.2]
    rfl

/-- Settles O40: the body decodes to a table and an index, and the index names an entry or is above the table's last. -/
theorem readsAnswerWhatStands : Obligations.ReadsAnswerWhatStands := by
  intro e rest more s hfront
  refine ⟨fun b1 b0 hkind hbody => ?_, fun b1 b0 hkind hbody => ?_, fun b1 b0 hkind hbody => ?_, fun n hkind hbody => ?_,
    fun hkind hbody => ?_, fun hunknown => exec_unknownRequest hfront hunknown⟩
  · have hexec := exec_getEntry hfront hkind (hbody ▸ decodeEntryRef_axis b1 b0)
    exact ⟨fun x hx => exec_indexed hexec hx rfl, fun habove => exec_badIndex hexec habove⟩
  · have hexec := exec_getEntry hfront hkind (hbody ▸ decodeEntryRef_pair b1 b0)
    exact ⟨fun i hi => exec_indexed hexec hi rfl, fun habove => exec_badIndex hexec habove⟩
  · have hexec := exec_getEntry hfront hkind (hbody ▸ decodeEntryRef_line b1 b0)
    exact ⟨fun l hl => exec_indexed hexec hl rfl, fun habove => exec_badIndex hexec habove⟩
  · have hexec := exec_getAxis hfront hkind hbody
    refine ⟨fun x hx => exec_indexed hexec hx ?_, fun habove => exec_badIndex hexec habove⟩
    rw [answer_withoutFront]
    change answered e rest more .accepted (.context (ctxOf s x) ((loadOfAxis s x).map LoadSection.tareOffset)) s = _
    rw [loadOfAxis]
    cases bodyOf s x with
    | none => rfl
    | some b =>
      cases b with
      | mk _ _ _ _ _ _ _ _ _ _ load => cases load <;> rfl
  · have hdecoded : decodeNone e.body = .ok () := by rw [hbody]; rfl
    exact (carryOut_front runGetSettings hfront hkind).trans (congrArg Host.Outcome.next (judged_of_admits hdecoded rfl))

end Sys2Proof.Machine
end

section
/-! SUPPORT. CLEAR_FAULT, TARE and UNTARE (R20, R32, R133, R138), and RESTART (R173). -/

namespace Sys2Proof.Machine

/-! ## The tests of the requests on one axis -/

section
variable {e : Envelope} {s : State} {x : Axis}

theorem underTare_iff : underTare s x = true ↔ ∃ t, s.tare = some t ∧ t.axis = x := by
  rw [underTare.eq_def]
  cases s.tare with
  | none => simp
  | some t => simp

theorem loadOfAxis_eq_none (h : ∀ b, bodyOf s x = some b → b.load = none) : loadOfAxis s x = none := by
  rw [loadOfAxis, Option.bind_eq_none_iff]
  exact h

theorem loadOfAxis_of_body {b : AxisBody} {l : LoadSection} (hbody : bodyOf s x = some b) (hload : b.load = some l) :
    loadOfAxis s x = some l := by
  rw [loadOfAxis, hbody, Option.bind_some, hload]

/-! ## The verdicts on TARE and UNTARE (R133, R138) -/

theorem judgeTare_of_no_load (h : loadOfAxis s x = none) : judgeTare e x s = refuse e .noLoadCell s :=
  if_pos (Option.isNone_iff_eq_none.mpr h)

section
variable {l : LoadSection} (hload : loadOfAxis s x = some l)
include hload

theorem judgeTare_of_load : judgeTare e x s =
    if (ctxOf s x).state ≠ .parked then refuse e .notParked s
    else if s.tare.isSome then refuse e .busy s
    else answer e .accepted (.tareStage 0) { s with tare := some { axis := x, stage := 0, count := 0, sum := 0 } } := by
  rw [judgeTare, hload]
  rfl

theorem judgeTare_of_not_parked (hstate : (ctxOf s x).state ≠ .parked) : judgeTare e x s = refuse e .notParked s :=
  (judgeTare_of_load hload).trans (if_pos hstate)

theorem judgeTare_of_busy (hstate : (ctxOf s x).state = .parked) (htare : s.tare ≠ none) : judgeTare e x s = refuse e .busy s :=
  (judgeTare_of_load hload).trans ((if_neg (not_not_intro hstate)).trans (if_pos (Option.isSome_iff_ne_none.mpr htare)))

theorem judgeTare_of_idle (hstate : (ctxOf s x).state = .parked) (htare : s.tare = none) : judgeTare e x s =
    answer e .accepted (.tareStage 0) { s with tare := some { axis := x, stage := 0, count := 0, sum := 0 } } :=
  (judgeTare_of_load hload).trans ((if_neg (not_not_intro hstate)).trans
    (if_neg fun hsome => Option.isSome_iff_ne_none.mp hsome htare))

theorem judgeUntare_of_load : judgeUntare e x s =
    if underTare s x then refuse e .busy s else accept e (untareAxis x s) := by
  rw [judgeUntare, hload]
  rfl

theorem judgeUntare_of_busy (htare : ∃ t, s.tare = some t ∧ t.axis = x) : judgeUntare e x s = refuse e .busy s :=
  (judgeUntare_of_load hload).trans (if_pos (underTare_iff.mpr htare))

theorem judgeUntare_of_free (htare : ∀ t, s.tare = some t → t.axis ≠ x) : judgeUntare e x s = accept e (untareAxis x s) :=
  (judgeUntare_of_load hload).trans (if_neg fun hunder =>
    let ⟨t, hsome, haxis⟩ := underTare_iff.mp hunder
    htare t hsome haxis)

end

theorem judgeUntare_of_no_load (h : loadOfAxis s x = none) : judgeUntare e x s = refuse e .noLoadCell s :=
  if_pos (Option.isNone_iff_eq_none.mpr h)

/-- The tare offset of an axis with a load section becomes 0, and its load ring empty (R138). -/
theorem untareAxis_of_load {b : AxisBody} {l : LoadSection} (hbody : bodyOf s x = some b) (hload : b.load = some l) :
    untareAxis x s = setCtx x
      { ctxOf s x with
        ring := [], filtered := none
        reference := if (ctxOf s x).state = .tracking then none else (ctxOf s x).reference }
      { s with axisTab := tset s.axisTab x { tget s.axisTab x with
          body := some { b with load := some { l with tareOffset := 0 } } } } := by
  have hentry : (tget s.axisTab x).body = some b := hbody
  rw [untareAxis, hentry, Option.map_some, AxisBody.withOffset, hload]
  rfl

end

/-! ## The requests on one axis, by their one-byte body -/

section
variable {e : Envelope} {rest : List Envelope} {more : List (List Envelope)} {s : State} {n : Byte}

theorem exec_clearFault (h : FrontRequest e rest more s) (hkind : e.kind = 7) (hbody : e.body = [n]) :
    exec .clearFault s = .next (indexed 128 e n.toNat (judgeClearFault e) (withoutFront rest more s)) :=
  (carryOut_front runClearFault h hkind).trans
    (congrArg Host.Outcome.next (judged_of_admits (decoded := decodeByte e.body) (hbody ▸ rfl) rfl))

/-- Outside COMMISSION a structural request whose body decodes is refused (R167). -/
theorem structural_wrongMode {α : Type} {decoded : Except Nat α} {own : α → State → State} {a : α}
    (hdecoded : decoded = .ok a) (hmode : s.req.mode ≠ .commission) :
    judged e .structural decoded own (withoutFront rest more s) = answered e rest more .wrongMode .empty s :=
  judged_of_not_admits hdecoded (Bool.eq_false_iff.mpr (mt structural_admits_iff.mp hmode))

/-- In COMMISSION a structural request whose body decodes is judged by its own checks (R167). -/
theorem structural_judged {α : Type} {decoded : Except Nat α} {own : α → State → State} {a : α}
    (hdecoded : decoded = .ok a) (hmode : s.req.mode = .commission) :
    judged e .structural decoded own (withoutFront rest more s) = own a (withoutFront rest more s) :=
  judged_of_admits hdecoded (structural_admits_iff.mpr hmode)

theorem decodeByte_of_body (hbody : e.body = [n]) : decodeByte e.body = .ok n.toNat := by
  rw [hbody]
  rfl

theorem exec_tare (h : FrontRequest e rest more s) (hkind : e.kind = 16) (hbody : e.body = [n])
    (hmode : s.req.mode = .commission) :
    exec .tare s = .next (indexed 128 e n.toNat (judgeTare e) (withoutFront rest more s)) :=
  (carryOut_front runTare h hkind).trans
    (congrArg Host.Outcome.next (structural_judged (decodeByte_of_body hbody) hmode))

theorem exec_untare (h : FrontRequest e rest more s) (hkind : e.kind = 17) (hbody : e.body = [n])
    (hmode : s.req.mode = .commission) :
    exec .untare s = .next (indexed 128 e n.toNat (judgeUntare e) (withoutFront rest more s)) :=
  (carryOut_front runUntare h hkind).trans
    (congrArg Host.Outcome.next (structural_judged (decodeByte_of_body hbody) hmode))

end

/-! ## RESTART (R173) -/

section
variable (s : State)

theorem tget_lines_restartOwners (l : Line) :
    tget (restartOwners s).lines l = LineState.unsettledAt (tget s.lines l).raw s.now := by
  rw [restartOwners, unsettleLines, tget_tmap]
  simp

/-- A line that RESTART unsettles is due at once exactly when it has no settle time (R86, R87). -/
theorem settleDue_restartOwners (l : Line) : settleDue (restartOwners s) l = decide (settleTicks s l = 0) := by
  have hticks : settleTicks (restartOwners s) l = settleTicks s l := by simp [settleTicks, restartOwners]
  have hnow : (restartOwners s).now = s.now := by simp [restartOwners]
  rw [settleDue, tget_lines_restartOwners, hticks, hnow]
  simp [LineState.unsettledAt]

theorem dueEvent_restartOwners (l : Line) : dueEvent (restartOwners s) l =
    if settleTicks s l = 0 then some (.interlockChanged l (tget s.lines l).raw (assertionOf (tget s.lineTab l) (tget s.lines l).raw))
    else none := by
  have htab : (restartOwners s).lineTab = s.lineTab := by simp [restartOwners]
  rw [dueEvent, settleDue_restartOwners, settleEvent, tget_lines_restartOwners, htab]
  simp only [decide_eq_true_eq]
  rfl

/-- The lines that settle with a RESTART, and their events, in ascending number (R87). -/
theorem settleAllDue_restartOwners : settleAllDue (restartOwners s) = { restartOwners s with
    lines := tmap (fun l x =>
      if settleTicks s l = 0 then { raw := x.raw, settled := .known x.raw, pending := none, since := s.now }
      else { raw := x.raw, settled := .unsettled, pending := some x.raw, since := s.now }) s.lines
    ev := (raiseAll ((allLines.filter (fun l => settleTicks s l = 0)).map (fun l =>
        .interlockChanged l (tget s.lines l).raw (assertionOf (tget s.lineTab l) (tget s.lines l).raw)))
      { s with ev := { s.ev with queue := [], latches := Vector.replicate 4 none, lost := false } }).ev } := by
  have hlines : tmap (fun l x => if settleDue (restartOwners s) l then x.settle else x) (restartOwners s).lines =
      tmap (fun l x =>
        if settleTicks s l = 0 then { raw := x.raw, settled := .known x.raw, pending := none, since := s.now }
        else { raw := x.raw, settled := .unsettled, pending := some x.raw, since := s.now }) s.lines := by
    refine table_ext fun l => ?_
    rw [tget_tmap, tget_tmap, tget_lines_restartOwners, settleDue_restartOwners]
    simp only [decide_eq_true_eq]
    rfl
  have hevents : allLines.filterMap (dueEvent (restartOwners s)) =
      (allLines.filter (fun l => settleTicks s l = 0)).map (fun l =>
        .interlockChanged l (tget s.lines l).raw (assertionOf (tget s.lineTab l) (tget s.lines l).raw)) := by
    rw [funext (dueEvent_restartOwners s), ← List.filterMap_eq_map, List.filterMap_filter]
    congr 1
    funext l
    simp
  rw [settleAllDue_eq, hlines, hevents, raiseAll_eq]
  rfl

end

section
variable {e : Envelope} {rest : List Envelope} {more : List (List Envelope)} {s : State}

theorem exec_restart (h : FrontRequest e rest more s) (hkind : e.kind = 8) (hbody : e.body = []) :
    exec .restart s = .next (judgeRestart e (withoutFront rest more s)) := by
  have hdecoded : decodeNone e.body = .ok () := by rw [hbody]; rfl
  exact (carryOut_front runRestart h hkind).trans (congrArg Host.Outcome.next (judged_of_admits hdecoded rfl))

theorem judgeRestart_of_moving (h : Moving s) : judgeRestart e s = refuse e .axisMoving s :=
  if_pos ((anyMoving_iff s).mpr h)

theorem judgeRestart_of_still (h : ¬ Moving s) : judgeRestart e s = accept e (settleAllDue (restartOwners s)) :=
  if_neg (mt (anyMoving_iff s).mp h)

end

/-- Settles O43: the mode for TARE and UNTARE, then the index, then the checks on the axis in their order. -/
theorem clearTareAndUntareJudged : Obligations.ClearTareAndUntareJudged := by
  intro e rest more s n hfront hbody refusedWith
  refine ⟨fun hkind habove => exec_badIndex (exec_clearFault hfront hkind hbody) habove, ?_, ?_, fun x hx => ⟨?_, ?_, ?_, ?_⟩⟩
  · rintro (hkind | hkind) hmode <;> dsimp only [refusedWith] <;> rw [hkind]
    · exact (carryOut_front runTare hfront hkind).trans
        (congrArg Host.Outcome.next (structural_wrongMode (decodeByte_of_body hbody) hmode))
    · exact (carryOut_front runUntare hfront hkind).trans
        (congrArg Host.Outcome.next (structural_wrongMode (decodeByte_of_body hbody) hmode))
  · rintro (hkind | hkind) hmode habove <;> dsimp only [refusedWith] <;> rw [hkind]
    · exact exec_badIndex (exec_tare hfront hkind hbody hmode) habove
    · exact exec_badIndex (exec_untare hfront hkind hbody hmode) habove
  · exact fun hkind hstate => exec_indexed (exec_clearFault hfront hkind hbody) hx (if_neg hstate)
  · exact fun hkind hstate => exec_indexed (exec_clearFault hfront hkind hbody) hx (if_pos hstate)
  · rintro (hkind | hkind) hmode hnone <;> dsimp only [refusedWith] <;> rw [hkind]
    · exact exec_indexed (exec_tare hfront hkind hbody hmode) hx (judgeTare_of_no_load (loadOfAxis_eq_none hnone))
    · exact exec_indexed (exec_untare hfront hkind hbody hmode) hx (judgeUntare_of_no_load (loadOfAxis_eq_none hnone))
  · intro b l hmode hb hl
    have hload : loadOfAxis (withoutFront rest more s) x = some l := loadOfAxis_of_body hb hl
    refine ⟨fun hkind hstate => ?_, fun hkind hstate htare => ?_, fun hkind hstate htare => ?_, fun hkind htare => ?_,
      fun hkind htare => ?_⟩
    · exact exec_indexed (exec_tare hfront hkind hbody hmode) hx (judgeTare_of_not_parked hload hstate)
    · exact exec_indexed (exec_tare hfront hkind hbody hmode) hx (judgeTare_of_busy hload hstate htare)
    · exact exec_indexed (exec_tare hfront hkind hbody hmode) hx (judgeTare_of_idle hload hstate htare)
    · exact exec_indexed (exec_untare hfront hkind hbody hmode) hx (judgeUntare_of_busy hload htare)
    · refine exec_indexed (exec_untare hfront hkind hbody hmode) hx ((judgeUntare_of_free hload htare).trans ?_)
      rw [untareAxis_of_load (s := withoutFront rest more s) hb hl]
      rfl

/-- Settles O44: each owner's state after a RESTART, and the lines without a settle time settled with it. -/
theorem restartReturnsEveryOwner : Obligations.RestartReturnsEveryOwner := by
  intro e rest more s hfront hkind hbody
  have hexec := exec_restart hfront hkind hbody
  refine ⟨fun hmoving => hexec.trans (congrArg Host.Outcome.next (judgeRestart_of_moving (s := withoutFront rest more s) hmoving)),
    fun hstill => ⟨_, hexec.trans (congrArg Host.Outcome.next (judgeRestart_of_still (s := withoutFront rest more s) hstill)), ?_⟩⟩
  rw [settleAllDue_restartOwners, restartOwners, unsettleLines, mapCtx, withContexts]
  refine ⟨rfl, fun x => tget_tmap _ _ _, fun i => tget_tmap _ _ _, rfl, rfl, rfl, fun l => tget_tmap _ _ _, rfl, rfl, ?_, ?_⟩
  · rw [raiseAll_eq, raiseAll_eq]
    rfl
  · rfl

end Sys2Proof.Machine
end

section
/-! SUPPORT. The requests that write the tables and the settings record: PUT_AXIS, PUT_PAIR, PUT_INTERLOCK, ERASE_ENTRY and
PUT_SETTINGS (R9 to R17, R67 to R70, R86, R91 to R93, R116, R168, R172). -/

namespace Sys2Proof.Machine

/-! ## Protection (R168) -/

section
variable {e : Envelope} {rest : List Envelope} {more : List (List Envelope)} {s : State} {cmd : Instr}

theorem protects_iff (s : State) (locked : Bool) : protects s locked = true ↔ Protected s locked := by
  simp [protects, Protected]

/-- An entry named by its index: refused PROTECTED when its locked flag protects it, else judged by the request itself. -/
theorem exec_guarded {n k : Nat} {table : TableCode} {lockedOf : State → Fin n → Bool} {own : Fin n → State → State} {i : Fin n}
    {locked : Bool} (hexec : exec cmd s = .next (indexed n e k
      (fun i t => guarded e table i.val (lockedOf t i) (own i) t) (withoutFront rest more s)))
    (hi : i.val = k) (hlocked : lockedOf (withoutFront rest more s) i = locked) :
    (Protected s locked → exec cmd s = .next (protectedAnswer e rest more table i.val s)) ∧
    (¬ Protected s locked → exec cmd s = .next (own i (withoutFront rest more s))) := by
  rw [hexec, indexed_of_val hi, guarded.eq_def, hlocked]
  refine ⟨fun h => congrArg Host.Outcome.next ?_, fun h => congrArg Host.Outcome.next ?_⟩
  · exact if_pos ((protects_iff (withoutFront rest more s) locked).mpr h)
  · exact if_neg (mt (protects_iff (withoutFront rest more s) locked).mp h)

end

/-! ## PUT_AXIS (R9 to R14) -/

section
variable {e : Envelope} {rest : List Envelope} {more : List (List Envelope)} {s : State} {x : Axis} {b : AxisBody}

theorem exec_putAxis {n : Nat} (h : FrontRequest e rest more s) (hkind : e.kind = 11)
    (hdecoded : decodePutAxis e.body = .ok (n, b)) :
    exec .putAxis s = .next (judgePutAxis e (n, b) (withoutFront rest more s)) :=
  (carryOut_front runPutAxis h hkind).trans (congrArg Host.Outcome.next (judged_of_admits hdecoded rfl))

theorem not_underTare_of_others (htare : ∀ t, s.tare = some t → t.axis ≠ x) : ¬ underTare s x = true := fun hunder =>
  let ⟨t, hsome, haxis⟩ := underTare_iff.mp hunder
  htare t hsome haxis

theorem parkedOutside_of_outside {c : AxisCtx} {p : Int} (hstate : c.state = .parked) (hpos : c.pos = some p)
    (houtside : p < b.lower ∨ b.upper < p) : parkedOutside c b = some p := by
  rw [parkedOutside.eq_def, hstate, hpos]
  exact if_neg fun hin => by
    have := (within_iff _ _ _).mp hin
    omega

theorem parkedOutside_of_inside {c : AxisCtx}
    (hinside : ∀ p, c.state = .parked → c.pos = some p → b.lower ≤ p ∧ p ≤ b.upper) : parkedOutside c b = none := by
  unfold parkedOutside
  split
  next p hstate hpos => exact if_pos ((within_iff _ _ _).mpr (hinside p hstate hpos))
  next => rfl

theorem judgeAxisBody_of_bad {f : Nat} (h : firstBad b.checks = some f) : judgeAxisBody e x b s = refuseField e f s := by
  rw [judgeAxisBody.eq_def, h]

section
variable (hrange : b.InRange)
include hrange

theorem judgeAxisBody_of_moving (hcue : (ctxOf s x).state.inCue = true) : judgeAxisBody e x b s = refuse e .axisMoving s := by
  rw [judgeAxisBody.eq_def, (axisInRange_iff b).mpr hrange]
  exact if_pos hcue

variable (hcue : (ctxOf s x).state.inCue = false)
include hcue

theorem judgeAxisBody_of_taring (htare : ∃ t, s.tare = some t ∧ t.axis = x) : judgeAxisBody e x b s = refuse e .busy s := by
  rw [judgeAxisBody.eq_def, (axisInRange_iff b).mpr hrange]
  exact (if_neg (Bool.eq_false_iff.mp hcue)).trans (if_pos (underTare_iff.mpr htare))

variable (htare : ∀ t, s.tare = some t → t.axis ≠ x)
include htare

theorem judgeAxisBody_of_outside {p : Int} (houtside : parkedOutside (ctxOf s x) b = some p) :
    judgeAxisBody e x b s = answer e .outOfLimits (.outOfLimits p) s := by
  rw [judgeAxisBody.eq_def, (axisInRange_iff b).mpr hrange, houtside]
  exact (if_neg (Bool.eq_false_iff.mp hcue)).trans (if_neg (not_underTare_of_others htare))

theorem judgeAxisBody_of_inside (hinside : parkedOutside (ctxOf s x) b = none) :
    judgeAxisBody e x b s = accept e (writeAxis x b s) := by
  rw [judgeAxisBody.eq_def, (axisInRange_iff b).mpr hrange, hinside]
  exact (if_neg (Bool.eq_false_iff.mp hcue)).trans (if_neg (not_underTare_of_others htare))

end

end

/-! ## PUT_PAIR and PUT_INTERLOCK (R67 to R69, R91, R92) -/

section
variable {e : Envelope} {rest : List Envelope} {more : List (List Envelope)} {s : State} {n : Nat}

theorem exec_putPair {f : PairFields} (h : FrontRequest e rest more s) (hkind : e.kind = 9)
    (hdecoded : decodePutPair e.body = .ok (n, f)) :
    exec .putPair s = .next (judgePutPair e (n, f) (withoutFront rest more s)) :=
  (carryOut_front runPutPair h hkind).trans (congrArg Host.Outcome.next (judged_of_admits hdecoded rfl))

theorem exec_putInterlock {f : InterlockFields} (h : FrontRequest e rest more s) (hkind : e.kind = 10)
    (hdecoded : decodePutInterlock e.body = .ok (n, f)) :
    exec .putInterlock s = .next (judgePutInterlock e (n, f) (withoutFront rest more s)) :=
  (carryOut_front runPutInterlock h hkind).trans (congrArg Host.Outcome.next (judged_of_admits hdecoded rfl))

theorem checkedBody_of_bad {α : Type} {checks : List (Nat × Bool)} {body : Option α} {k : Nat} (h : firstBad checks = some k) :
    checkedBody checks body = .error k := by
  rw [checkedBody.eq_def, h]

theorem checkedBody_of_range {α : Type} {checks : List (Nat × Bool)} {body : Option α} {b : α} (h : firstBad checks = none)
    (hbody : body = some b) : checkedBody checks body = .ok b := by
  rw [checkedBody.eq_def, h, hbody]

/-- The lowest other entry that holds the same pair is the one that PUT_PAIR names (R67). -/
theorem duplicateOf_eq_some {i j : PairIndex} {b : PairBody}
    (hholds : j ≠ i ∧ ∃ c, (tget s.pairTab j).body = some c ∧ c.upper = b.upper ∧ c.lower = b.lower)
    (hleast : ∀ k, k < j → ¬ (k ≠ i ∧ ∃ c, (tget s.pairTab k).body = some c ∧ c.upper = b.upper ∧ c.lower = b.lower)) :
    duplicateOf s i b = some j := by
  have htest (k : PairIndex) : (k != i && (tget s.pairTab k).body.any (fun r => r.sameAxes b)) = true ↔
      k ≠ i ∧ ∃ c, (tget s.pairTab k).body = some c ∧ c.upper = b.upper ∧ c.lower = b.lower := by
    simp only [Bool.and_eq_true, bne_iff_ne, Option.any_eq_true, PairBody.sameAxes, beq_iff_eq]
  rw [duplicateOf, tzip_eq_map, List.find?_map, Option.map_map]
  have hfound : (List.finRange 512).find? (fun k => k != i && (tget s.pairTab k).body.any (fun r => r.sameAxes b)) = some j := by
    rw [List.find?_eq_some_iff_getElem]
    refine ⟨(htest j).mpr hholds, j.val, by simp, by simp, fun k hk => ?_⟩
    rw [Bool.not_eq_true', Bool.eq_false_iff]
    exact mt (htest _).mp (hleast _ (by simpa [Fin.lt_def] using hk))
  exact (congrArg (Option.map _) hfound).trans rfl

theorem judgePairBody_of_bad {i : PairIndex} {f : PairFields} {k : Nat} (h : firstBad f.checks = some k) :
    judgePairBody e i f s = refuseField e k s := by
  rw [judgePairBody, checkedBody_of_bad h]

theorem judgePairBody_of_duplicate {i j : PairIndex} {f : PairFields} {b : PairBody} (hrange : firstBad f.checks = none)
    (hbody : f.body = some b) (hduplicate : duplicateOf s i b = some j) :
    judgePairBody e i f s = answer e .duplicatePair (.duplicatePair j) s := by
  simp only [judgePairBody, checkedBody_of_range hrange hbody, hduplicate]

theorem judgePairBody_of_new {i : PairIndex} {f : PairFields} {b : PairBody} (hrange : firstBad f.checks = none)
    (hbody : f.body = some b) (hnew : duplicateOf s i b = none) : judgePairBody e i f s = accept e (writePair i b s) := by
  simp only [judgePairBody, checkedBody_of_range hrange hbody, hnew]

theorem judgeLineBody_of_bad {l : Line} {f : InterlockFields} {k : Nat} (h : firstBad f.checks = some k) :
    judgeLineBody e l f s = refuseField e k s := by
  rw [judgeLineBody, checkedBody_of_bad h]

theorem judgeLineBody_of_range {l : Line} {f : InterlockFields} {b : InterlockBody} (hrange : firstBad f.checks = none)
    (hbody : f.body = some b) : judgeLineBody e l f s = accept e (writeLine l b s) := by
  rw [judgeLineBody, checkedBody_of_range hrange hbody]

/-- Taking the front request touches nothing that a line settles by. -/
theorem settledNow_withoutFront (l : Line) (s : State) :
    settledNow l (withoutFront rest more s) = withoutFront rest more (settledNow l s) := by
  have hlines : (withoutFront rest more s).lines = s.lines := rfl
  have hticks : settleTicks (withoutFront rest more s) l = settleTicks s l := rfl
  have hnow : (withoutFront rest more s).now = s.now := rfl
  cases hpending : (tget s.lines l).pending with
  | none => rw [settledNow_of_not_pending hpending, settledNow_of_not_pending (s := withoutFront rest more s) hpending]
  | some level =>
    rw [settledNow_of_pending hpending, settledNow_of_pending (s := withoutFront rest more s) hpending, hlines, hticks, hnow]
    split <;> rfl

/-- A line written, with what its pending level then does, is the specification's write (R86, R92, R93). -/
theorem accept_settleIfDue (l : Line) (u : State) :
    accept e (settleIfDue l (withoutFront rest more u)) = answered e rest more .accepted .empty (settledNow l u) := by
  rw [settleIfDue_eq_settledNow, settledNow_withoutFront, accept, answer_withoutFront]

theorem accept_writeLine (l : Line) (b : InterlockBody) (s : State) :
    accept e (writeLine l b (withoutFront rest more s)) = answered e rest more .accepted .empty (settledNow l
      { s with lineTab := tset s.lineTab l { body := some b, locked := (tget s.lineTab l).locked } }) :=
  accept_settleIfDue l (setLineEntry l { tget s.lineTab l with body := some b } s)

theorem accept_eraseLine (l : Line) (s : State) :
    accept e (eraseLine l (withoutFront rest more s)) = answered e rest more .accepted .empty (settledNow l
      { s with lineTab := tset s.lineTab l { body := none, locked := false } }) :=
  accept_settleIfDue l (setLineEntry l { body := none, locked := false } s)

end

/-! ## ERASE_ENTRY (R16, R17, R70, R93) -/

section
variable {e : Envelope} {rest : List Envelope} {more : List (List Envelope)} {s : State} {x : Axis}

theorem exec_eraseEntry {ref : TableCode × Nat} (h : FrontRequest e rest more s) (hkind : e.kind = 12)
    (hdecoded : decodeEntryRef e.body = .ok ref) :
    exec .eraseEntry s = .next (judgeErase e ref (withoutFront rest more s)) :=
  (carryOut_front runEraseEntry h hkind).trans (congrArg Host.Outcome.next (judged_of_admits hdecoded rfl))

theorem judgeEraseAxis_of_absent (hbody : bodyOf s x = none) : judgeEraseAxis e x s = refuse e .notConfigured s :=
  if_pos (Option.isNone_iff_eq_none.mpr hbody)

section
variable (hbody : bodyOf s x ≠ none)
include hbody

theorem judgeEraseAxis_of_moving (hcue : (ctxOf s x).state.inCue = true) : judgeEraseAxis e x s = refuse e .axisMoving s :=
  (if_neg (mt Option.isNone_iff_eq_none.mp hbody)).trans (if_pos hcue)

variable (hcue : (ctxOf s x).state.inCue = false)
include hcue

theorem judgeEraseAxis_of_taring (htare : ∃ t, s.tare = some t ∧ t.axis = x) : judgeEraseAxis e x s = refuse e .busy s :=
  (if_neg (mt Option.isNone_iff_eq_none.mp hbody)).trans
    ((if_neg (Bool.eq_false_iff.mp hcue)).trans (if_pos (underTare_iff.mpr htare)))

theorem judgeEraseAxis_of_free (htare : ∀ t, s.tare = some t → t.axis ≠ x) :
    judgeEraseAxis e x s = accept e (eraseAxis x s) :=
  (if_neg (mt Option.isNone_iff_eq_none.mp hbody)).trans
    ((if_neg (Bool.eq_false_iff.mp hcue)).trans (if_neg (not_underTare_of_others htare)))

end

theorem judgeErasePair_of_absent {i : PairIndex} (hbody : (tget s.pairTab i).body = none) :
    judgeErasePair e i s = refuse e .notConfigured s := if_pos (Option.isNone_iff_eq_none.mpr hbody)

theorem judgeErasePair_of_present {i : PairIndex} (hbody : (tget s.pairTab i).body ≠ none) :
    judgeErasePair e i s = accept e (erasePair i s) := if_neg (mt Option.isNone_iff_eq_none.mp hbody)

theorem judgeEraseLine_of_absent {l : Line} (hbody : (tget s.lineTab l).body = none) :
    judgeEraseLine e l s = refuse e .notConfigured s := if_pos (Option.isNone_iff_eq_none.mpr hbody)

theorem judgeEraseLine_of_present {l : Line} (hbody : (tget s.lineTab l).body ≠ none) :
    judgeEraseLine e l s = accept e (eraseLine l s) := if_neg (mt Option.isNone_iff_eq_none.mp hbody)

theorem CueGroup.without_eq (x : Axis) : CueGroup.without x = fun g => { g with axes := g.axes.filter (fun y => y ≠ x) } := by
  funext g
  simp [CueGroup.without]

end

/-! ## PUT_SETTINGS (R172) -/

section
variable {e : Envelope} {s : State} {r : Settings}

theorem judgePutSettings_of_bad {f : Nat} (h : firstBad r.checks = some f) : judgePutSettings e r s = refuseField e f s := by
  rw [judgePutSettings, h]

theorem judgePutSettings_of_range (hrange : r.InRange) : judgePutSettings e r s =
    if someAxis AxisState.inCue s.ctx then refuse e .axisMoving s else accept e (writeSettings r s) := by
  rw [judgePutSettings, (settingsInRange_iff r).mpr hrange]

end

/-- Settles O46: the body decoded, the index, the protection, the ranges, and the axis's state, in that order. -/
theorem putAxisJudgedAndWritten : Obligations.PutAxisJudgedAndWritten := by
  unfold Obligations.PutAxisJudgedAndWritten
  intro e rest more s hfront hkind answers
  refine ⟨fun f herror => carryOut_error hfront hkind rfl (by rw [herror]; rfl), fun n b hdecoded => ?_⟩
  have hexec := exec_putAxis hfront hkind hdecoded
  refine ⟨fun habove => exec_badIndex hexec habove, fun x hx => ?_⟩
  obtain ⟨hshielded, hopened⟩ := exec_guarded (lockedOf := fun t x => (tget t.axisTab x).locked) hexec hx rfl
  refine ⟨hshielded, fun hopen => ?_⟩
  have judgedAs {t : State} (hjudged : judgeAxisBody e x b (withoutFront rest more s) = t) : exec .putAxis s = .next t :=
    (hopened hopen).trans (congrArg Host.Outcome.next hjudged)
  refine ⟨fun f hbad => judgedAs (judgeAxisBody_of_bad hbad), fun hrange hcue => judgedAs (judgeAxisBody_of_moving hrange hcue),
    fun hrange hcue => ⟨fun htare => judgedAs (judgeAxisBody_of_taring hrange hcue htare), fun htare => ⟨?_, ?_⟩⟩⟩
  · exact fun p hstate hpos houtside =>
      judgedAs (judgeAxisBody_of_outside (s := withoutFront rest more s) hrange hcue htare
        (parkedOutside_of_outside hstate hpos houtside))
  · exact fun hinside =>
      judgedAs (judgeAxisBody_of_inside (s := withoutFront rest more s) hrange hcue htare (parkedOutside_of_inside hinside))

/-- Settles O47: the index, the protection, the ranges, and for a pair the other entries that hold it. -/
theorem pairAndInterlockPutsJudged : Obligations.PairAndInterlockPutsJudged := by
  unfold Obligations.PairAndInterlockPutsJudged
  constructor
  · intro e rest more s n f hfront hkind hdecoded answers
    have hexec := exec_putPair hfront hkind hdecoded
    refine ⟨fun habove => exec_badIndex hexec habove, ?_⟩
    intro i hi holds
    obtain ⟨hshielded, hopened⟩ := exec_guarded (lockedOf := fun t i => (tget t.pairTab i).locked) hexec hi rfl
    refine ⟨hshielded, fun hopen => ⟨fun k hbad => ?_, fun b hrange hbody => ⟨fun j hj hleast => ?_, fun hnone => ?_⟩⟩⟩
    · exact (hopened hopen).trans (congrArg Host.Outcome.next (judgePairBody_of_bad hbad))
    · have hduplicate : duplicateOf (withoutFront rest more s) i b = some j := duplicateOf_eq_some hj hleast
      exact (hopened hopen).trans (congrArg Host.Outcome.next (judgePairBody_of_duplicate hrange hbody hduplicate))
    · have hnew : duplicateOf (withoutFront rest more s) i b = none :=
        duplicateOf_eq_none.mpr fun j hj c hc hsame => hnone j ⟨hj, c, hc, hsame⟩
      exact (hopened hopen).trans (congrArg Host.Outcome.next (judgePairBody_of_new hrange hbody hnew))
  · intro e rest more s n f hfront hkind hdecoded answers
    have hexec := exec_putInterlock hfront hkind hdecoded
    refine ⟨fun habove => exec_badIndex hexec habove, fun l hl => ?_⟩
    obtain ⟨hshielded, hopened⟩ := exec_guarded (lockedOf := fun t l => (tget t.lineTab l).locked) hexec hl rfl
    refine ⟨hshielded, fun hopen => ⟨fun k hbad => ?_, fun b hrange hbody => ?_⟩⟩
    · exact (hopened hopen).trans (congrArg Host.Outcome.next (judgeLineBody_of_bad hbad))
    · exact (hopened hopen).trans (congrArg Host.Outcome.next
        ((judgeLineBody_of_range hrange hbody).trans (accept_writeLine l b s)))

/-- Settles O48: for each table the index, the protection, the entry's presence, and for an axis its state and the tare. -/
theorem erasesJudgedAndErased : Obligations.ErasesJudgedAndErased := by
  unfold Obligations.ErasesJudgedAndErased
  constructor
  · intro e rest more s b1 b0 hfront hkind hbody answers
    have hexec := exec_eraseEntry hfront hkind (hbody ▸ decodeEntryRef_axis b1 b0)
    refine ⟨fun habove => exec_badIndex hexec habove, ?_⟩
    intro x hx without
    obtain ⟨hshielded, hopened⟩ := exec_guarded (lockedOf := fun t x => (tget t.axisTab x).locked) hexec hx rfl
    refine ⟨hshielded, fun hopen => ?_⟩
    have judgedAs {t : State} (hjudged : judgeEraseAxis e x (withoutFront rest more s) = t) : exec .eraseEntry s = .next t :=
      (hopened hopen).trans (congrArg Host.Outcome.next hjudged)
    refine ⟨fun habsent => judgedAs (judgeEraseAxis_of_absent habsent),
      fun hpresent hcue => judgedAs (judgeEraseAxis_of_moving hpresent hcue), fun hpresent hcue =>
      ⟨fun htare => judgedAs (judgeEraseAxis_of_taring hpresent hcue htare), fun htare => judgedAs ?_⟩⟩
    rw [judgeEraseAxis_of_free (s := withoutFront rest more s) hpresent hcue htare, eraseAxis, CueGroup.without_eq]
    rfl
  · intro e rest more s b1 b0 hfront hkind answers
    have onPairs (hbody : e.body = [2, b1, b0]) := exec_eraseEntry hfront hkind (hbody ▸ decodeEntryRef_pair b1 b0)
    have onLines (hbody : e.body = [3, b1, b0]) := exec_eraseEntry hfront hkind (hbody ▸ decodeEntryRef_line b1 b0)
    refine ⟨fun hbody habove => exec_badIndex (onPairs hbody) habove, fun hbody habove => exec_badIndex (onLines hbody) habove,
      fun i hbody hi => ?_, fun l hbody hl => ?_⟩
    · obtain ⟨hshielded, hopened⟩ := exec_guarded (lockedOf := fun t i => (tget t.pairTab i).locked) (onPairs hbody) hi rfl
      refine ⟨hshielded, fun hopen => ⟨fun habsent => ?_, fun hpresent => ?_⟩⟩
      · exact (hopened hopen).trans (congrArg Host.Outcome.next (judgeErasePair_of_absent habsent))
      · exact (hopened hopen).trans (congrArg Host.Outcome.next (judgeErasePair_of_present hpresent))
    · obtain ⟨hshielded, hopened⟩ := exec_guarded (lockedOf := fun t l => (tget t.lineTab l).locked) (onLines hbody) hl rfl
      refine ⟨hshielded, fun hopen => ⟨fun habsent => ?_, fun hpresent => ?_⟩⟩
      · exact (hopened hopen).trans (congrArg Host.Outcome.next (judgeEraseLine_of_absent habsent))
      · exact (hopened hopen).trans (congrArg Host.Outcome.next
          ((judgeEraseLine_of_present (s := withoutFront rest more s) hpresent).trans (accept_eraseLine l s)))

/-- Settles O49: the mode, the ranges, the axes in cue, and the record written with the lists trimmed. -/
theorem putSettingsJudgedAndWritten : Obligations.PutSettingsJudgedAndWritten := by
  unfold Obligations.PutSettingsJudgedAndWritten
  intro e rest more s r hfront hkind hdecoded answers
  have hexec := carryOut_front runPutSettings hfront hkind
  refine ⟨fun hmode => hexec.trans (congrArg Host.Outcome.next (structural_wrongMode hdecoded hmode)), fun hmode => ?_⟩
  have judgedAs {t : State} (hjudged : judgePutSettings e r (withoutFront rest more s) = t) : exec .putSettings s = .next t :=
    hexec.trans (congrArg Host.Outcome.next ((structural_judged hdecoded hmode).trans hjudged))
  refine ⟨fun f hbad => judgedAs (judgePutSettings_of_bad hbad), fun hrange hcue => judgedAs ?_, fun hrange hcue => judgedAs ?_⟩
  · exact (judgePutSettings_of_range hrange).trans (if_pos ((someInCue_iff (withoutFront rest more s)).mpr hcue))
  · exact (judgePutSettings_of_range hrange).trans (if_neg (mt (someInCue_iff (withoutFront rest more s)).mp hcue))

end Sys2Proof.Machine
end

section
/-! SUPPORT. STAGE_CUE (R100 to R102), and the handover of TAKE_CUE with what it raises (R103 to R105, R136). -/

namespace Sys2Proof.Machine

/-! ## The motion requests by the mode (R167) -/

section
variable {e : Envelope} {rest : List Envelope} {more : List (List Envelope)} {s : State} {α : Type} {decoded : Except Nat α}
  {own : α → State → State} {a : α}

theorem motion_wrongMode (hdecoded : decoded = .ok a) (hmode : s.req.mode = .start) :
    judged e .motion decoded own (withoutFront rest more s) = answered e rest more .wrongMode .empty s :=
  judged_of_not_admits hdecoded (congrArg RequestGroup.motion.admits hmode)

theorem motion_judged (hdecoded : decoded = .ok a) (hmode : s.req.mode ≠ .start) :
    judged e .motion decoded own (withoutFront rest more s) = own a (withoutFront rest more s) := by
  refine judged_of_admits hdecoded (motion_admits_iff.mpr ?_)
  change s.req.mode = .commission ∨ s.req.mode = .inShow
  cases hm : s.req.mode with
  | start => exact absurd hm hmode
  | commission => exact .inl rfl
  | inShow => exact .inr rfl

end

/-! ## STAGE_CUE (R100 to R102) -/

section
variable {e : Envelope} {s : State} {x : Axis} {cue : Word16} {axes : List Axis}

/-- A listed axis passes check 4 exactly when it is PARKED, HELD, TRACKING or STOPPING (R100). -/
theorem stageRefusal_of_passes (h : (ctxOf s x).state = .parked ∨ (ctxOf s x).state.inCue = true) : stageRefusal s x = none := by
  rw [stageRefusal]
  cases hstate : (ctxOf s x).state with
  | parked | held | tracking | stopping => rfl
  | unconfigured | locating | faulted => simp [hstate, AxisState.inCue] at h

theorem stageRefusal_of_unconfigured (h : (ctxOf s x).state = .unconfigured) : stageRefusal s x = some (.notConfigured, x) := by
  rw [stageRefusal, h]

theorem stageRefusal_of_locating (h : (ctxOf s x).state = .locating) : stageRefusal s x = some (.notPositioned, x) := by
  rw [stageRefusal, h]

theorem stageRefusal_of_faulted (h : (ctxOf s x).state = .faulted) : stageRefusal s x = some (.axisFaulted, x) := by
  rw [stageRefusal, h]

/-- The first listed axis that fails, in ascending number, gives the refusal (R100). -/
theorem findSome_stageRefusal {r : Result × Axis} (hsorted : axes.Pairwise (· < ·)) (hx : x ∈ axes)
    (hearlier : ∀ y, y ∈ axes → y < x → (ctxOf s y).state = .parked ∨ (ctxOf s y).state.inCue = true)
    (hrefused : stageRefusal s x = some r) : axes.findSome? (stageRefusal s) = some r := by
  obtain ⟨before, behind, rfl⟩ := List.append_of_mem hx
  refine List.findSome?_eq_some_iff.mpr ⟨before, x, behind, rfl, hrefused, fun y hy => ?_⟩
  obtain ⟨-, -, hlt⟩ := List.pairwise_append.mp hsorted
  exact stageRefusal_of_passes (hearlier y (List.mem_append_left _ hy) (hlt y hy x List.mem_cons_self))

theorem judgeStageSet_of_full (h : s.staged ≠ none) : judgeStageSet e cue axes s = refuse e .pendingFull s :=
  if_pos (Option.isSome_iff_ne_none.mpr h)

section
variable (hempty : s.staged = none)
include hempty

theorem judgeStageSet_of_refused {r : Result} (h : axes.findSome? (stageRefusal s) = some (r, x)) :
    judgeStageSet e cue axes s = answer e r (.axis x) s := by
  rw [judgeStageSet, hempty, h]
  rfl

theorem judgeStageSet_of_passes (h : ∀ x, x ∈ axes → (ctxOf s x).state = .parked ∨ (ctxOf s x).state.inCue = true) :
    judgeStageSet e cue axes s =
      answer e .accepted (.staged axes.length) { s with staged := some { number := cue, axes := axes } } := by
  rw [judgeStageSet, List.findSome?_eq_none_iff.mpr fun x hx => stageRefusal_of_passes (h x hx), hempty]
  rfl

end

theorem judgeStage_of_list {list : AxisList} {set : AxisSet} (h : list.toSet = some set) :
    judgeStage e (cue, list) s = judgeStageSet e cue set.members s := by
  rw [judgeStage, h]

end

/-! ## The handover of one axis (R104) -/

theorem handover_member (n : Nat) (c : AxisCtx) : c.handover n true = match c.state with
    | .parked => { c with state := .held, step := 0, cause := some .taken, capture := true }
    | .held => { c with capture := true }
    | .stopping => { c with dest := some .held, capture := true }
    | _ => c := by
  rw [AxisCtx.handover.eq_def]
  cases c.state <;> rfl

/-- A released TRACKING axis keeps its capture permission (log entry 12). -/
theorem handover_other (n : Nat) (c : AxisCtx) : c.handover n false = match c.state with
    | .held => { c with
        state := .parked, step := 0, settle := n, cause := none, dest := none, capture := false, reference := none }
    | .tracking => { c with state := .stopping, cause := some .released, dest := some .parked, reference := none }
    | .stopping => { c with dest := some .parked }
    | _ => c := by
  have hreleased : c.stopped .released =
      { c with state := .stopping, cause := some .released, dest := some .parked, reference := none } := by
    rw [AxisCtx.stopped, StopCause.recapturable, Bool.and_true]
    rfl
  rw [AxisCtx.handover.eq_def, hreleased]
  cases c.state <;> rfl

theorem takeable_iff (a : AxisState) : a.takeable = true ↔ a = .parked ∨ a.inCue = true := by
  simp [AxisState.takeable]

/-- The TRACKING axes that a take releases, in ascending number (R105). -/
theorem filterMap_releasedEvent (s : State) (axes : List Axis) : (tzip s.ctx).filterMap (releasedEvent axes) =
    (allAxes.filter (fun x => (ctxOf s x).state = .tracking ∧ x ∉ axes)).map (fun x =>
      .axisStopped x (.stop .released) ((ctxOf s x).pos.getD 0)) := by
  rw [tzip_ctx, List.filterMap_map, ← List.filterMap_eq_map, List.filterMap_filter]
  congr 1
  funext x
  simp [releasedEvent, stoppedEvent]

/-! ## The tare in flight at a change of contexts (R136) -/

/-- The TAREBAD of a tare in flight that is there before and not after. -/
def tareAborted (before after : Option Tare) : List Event :=
  match before, after with
  | some a, none => [.tareBad a.axis a.stage a.count .leftParked]
  | _, _ => []

/-- Told of a change of contexts, the tare engine keeps the tare of an axis that is PARKED and aborts any other. -/
theorem exists_informTare (s : State) : ∃ kept, informTare s =
      { s with tare := kept, ev := (raiseAll (tareAborted s.tare kept) s).ev } ∧
    (s.tare = none → kept = none) ∧
    (∀ a, s.tare = some a → (ctxOf s a.axis).state ≠ .parked → kept = none) ∧
    (∀ a, s.tare = some a → (ctxOf s a.axis).state = .parked → kept = s.tare) := by
  cases htare : s.tare with
  | none =>
    refine ⟨none, ?_, fun _ => rfl, fun _ _ _ => rfl, fun _ _ _ => rfl⟩
    rw [informTare_of_kept (by simp [htare])]
    cases s
    cases htare
    rfl
  | some a =>
    by_cases hparked : (ctxOf s a.axis).state = .parked
    · refine ⟨some a, ?_, nofun, fun b hb hleft => ?_, fun _ _ _ => rfl⟩
      · rw [informTare_of_kept (by simpa [htare] using hparked)]
        cases s
        cases htare
        rfl
      · cases hb
        exact absurd hparked hleft
    · refine ⟨none, informTare_of_left htare hparked, fun _ => rfl, fun _ _ _ => rfl, fun b hb hstays => ?_⟩
      cases hb
      exact absurd hstays hparked

theorem raiseAll_append (es fs : List Event) (s : State) : raiseAll (es ++ fs) s = raiseAll fs (raiseAll es s) :=
  List.foldl_append

/-! ## TAKE_CUE (R103 to R105) -/

/-- The members of a group that are taken, and the others (R105). -/
theorem length_sub_takeable (s : State) (axes : List Axis) :
    (axes.filter (fun x => (ctxOf s x).state.takeable)).length =
      (axes.filter (fun x => (ctxOf s x).state = .parked ∨ (ctxOf s x).state.inCue = true)).length ∧
    axes.length - (axes.filter (fun x => (ctxOf s x).state.takeable)).length =
      (axes.filter (fun x => ¬ ((ctxOf s x).state = .parked ∨ (ctxOf s x).state.inCue = true))).length := by
  have htest : (fun x => (ctxOf s x).state.takeable) =
      fun x => decide ((ctxOf s x).state = .parked ∨ (ctxOf s x).state.inCue = true) :=
    funext fun x => Bool.eq_iff_iff.mpr ((takeable_iff _).trans decide_eq_true_iff.symm)
  have hall := List.length_eq_length_filter_add (l := axes)
    (fun x => decide ((ctxOf s x).state = .parked ∨ (ctxOf s x).state.inCue = true))
  simp only [htest, decide_not]
  exact ⟨trivial, by omega⟩

/-- The part as a take leaves it before the tare engine is told: the axes handed over, and the released ones' events. -/
def handedOver (g : CueGroup) (s : State) : State :=
  raiseAll ((tzip s.ctx).filterMap (releasedEvent g.axes))
    (mapCtx (fun x c => c.handover s.settings.brakeSettle (g.axes.contains x)) { s with active := some g, staged := none })

theorem judgeTake_of_empty {e : Envelope} {s : State} (h : s.staged = none) : judgeTake e s = refuse e .nothingPending s := by
  rw [judgeTake, h]

theorem judgeTake_of_staged {e : Envelope} {g : CueGroup} {s : State} (h : s.staged = some g) : judgeTake e s =
    answer e .accepted (.taken g.number
      (g.axes.filter (fun x => (ctxOf s x).state = .parked ∨ (ctxOf s x).state.inCue = true)).length
      (g.axes.filter (fun x => ¬ ((ctxOf s x).state = .parked ∨ (ctxOf s x).state.inCue = true))).length)
      (informTare (handedOver g s)) := by
  obtain ⟨htaken, hothers⟩ := length_sub_takeable s g.axes
  rw [judgeTake, h]
  dsimp only
  rw [takeGroup, hothers, htaken]
  rfl

theorem ctxOf_handedOver (g : CueGroup) (s : State) (x : Axis) : ctxOf (handedOver g s) x =
    (ctxOf s x).handover s.settings.brakeSettle (g.axes.contains x) := by
  rw [handedOver, ctxOf_congr (raiseAll_same _ _).2.2.2.2.2.2.2.2.1, ctxOf_mapCtx]
  rfl

theorem ev_handedOver (g : CueGroup) (s : State) : (handedOver g s).ev =
    (raiseAll ((allAxes.filter (fun x => (ctxOf s x).state = .tracking ∧ x ∉ g.axes)).map (fun x =>
      .axisStopped x (.stop .released) ((ctxOf s x).pos.getD 0))) s).ev := by
  rw [handedOver, filterMap_releasedEvent, raiseAll_eq, raiseAll_eq]
  rfl

theorem handedOver_frame (g : CueGroup) (s : State) : handedOver g s = { s with
    ctx := (handedOver g s).ctx, anyFault := (handedOver g s).anyFault, inMotion := (handedOver g s).inMotion
    active := some g, staged := none, ev := (handedOver g s).ev } := by
  rw [handedOver, raiseAll_eq]
  rfl

theorem raiseAll_ev_congr {s t : State} (h : s.ev = t.ev) (es : List Event) : (raiseAll es s).ev = (raiseAll es t).ev := by
  rw [raiseAll_eq, raiseAll_eq, h]

theorem exec_takeCue {e : Envelope} {rest : List Envelope} {more : List (List Envelope)} {s : State}
    (h : FrontRequest e rest more s) (hkind : e.kind = 19) : exec .takeCue s = .next (runTakeCue e (withoutFront rest more s)) :=
  carryOut_front runTakeCue h hkind

/-- Settles O51: the mode, the list, the slot, and the first listed axis that fails; a list's members stand in ascending order. -/
theorem stageCueJudgedAndStaged : Obligations.StageCueJudgedAndStaged := by
  unfold Obligations.StageCueJudgedAndStaged
  intro e rest more s cue list hfront hkind hdecoded answers passes
  have hexec := carryOut_front runStageCue hfront hkind
  refine ⟨fun hmode => hexec.trans (congrArg Host.Outcome.next (motion_wrongMode hdecoded hmode)), fun hmode => ?_⟩
  have judgedAs {t : State} (hjudged : judgeStage e (cue, list) (withoutFront rest more s) = t) : exec .stageCue s = .next t :=
    hexec.trans (congrArg Host.Outcome.next ((motion_judged hdecoded hmode).trans hjudged))
  refine ⟨fun hlist => judgedAs (by rw [judgeStage, hlist]; rfl), fun set hset => ?_⟩
  have setAs {t : State} (hjudged : judgeStageSet e cue set.members (withoutFront rest more s) = t) : exec .stageCue s = .next t :=
    judgedAs ((judgeStage_of_list hset).trans hjudged)
  refine ⟨fun hfull => setAs (judgeStageSet_of_full hfull), fun hempty => ⟨fun x hx hearlier => ?_, fun hpasses => ?_⟩⟩
  · have refusedAs {r : Result} (hrefused : stageRefusal (withoutFront rest more s) x = some (r, x)) : answers r (.axis x) :=
      setAs (judgeStageSet_of_refused (s := withoutFront rest more s) hempty
        (findSome_stageRefusal (GroupsLawful.members_ascending hset) hx hearlier hrefused))
    exact ⟨fun hstate => refusedAs (stageRefusal_of_unconfigured hstate), fun hstate => refusedAs (stageRefusal_of_locating hstate),
      fun hstate => refusedAs (stageRefusal_of_faulted hstate)⟩
  · exact setAs (judgeStageSet_of_passes (s := withoutFront rest more s) hempty hpasses)

/-- Settles O53: the staged group handed over, the released axes' events, and the tare engine told of the change. -/
theorem takeCueHandsOver : Obligations.TakeCueHandsOver := by
  unfold Obligations.TakeCueHandsOver
  intro e rest more s hfront hkind hbody
  have hexec := exec_takeCue hfront hkind
  have hdecoded : decodeNone e.body = .ok () := by rw [hbody]; rfl
  refine ⟨fun hmode => hexec.trans (congrArg Host.Outcome.next (motion_wrongMode hdecoded hmode)), fun hmode hempty => ?_,
    fun g hmode hstaged => ?_⟩
  · exact hexec.trans (congrArg Host.Outcome.next ((motion_judged hdecoded hmode).trans
      (judgeTake_of_empty (s := withoutFront rest more s) hempty)))
  · obtain ⟨kept, hinform, hnone, hleft, hparked⟩ := exists_informTare (handedOver g (withoutFront rest more s))
    refine ⟨_, hexec.trans (congrArg Host.Outcome.next ((motion_judged hdecoded hmode).trans
      (judgeTake_of_staged (s := withoutFront rest more s) hstaged))), ?_⟩
    have hframe := handedOver_frame g (withoutFront rest more s)
    have htare : (handedOver g (withoutFront rest more s)).tare = s.tare := by rw [hframe]; rfl
    rw [htare] at hnone hleft hparked hinform
    rw [hinform]
    refine ⟨by rw [hframe]; rfl, by rw [hframe]; rfl, by rw [hframe]; rfl, fun x hx => ?_, fun x hx => ?_, ?_, hnone, hleft, hparked,
      by rw [hframe]; rfl⟩
    · refine (ctxOf_handedOver g (withoutFront rest more s) x).trans ?_
      rw [List.contains_iff_mem.mpr hx]
      exact handover_member _ _
    · refine (ctxOf_handedOver g (withoutFront rest more s) x).trans ?_
      rw [Bool.eq_false_iff.mpr (mt List.contains_iff_mem.mp hx)]
      exact handover_other _ _
    · refine (raiseAll_ev_congr (ev_handedOver g (withoutFront rest more s)) _).trans ?_
      rw [raiseAll_append]
      exact raiseAll_ev_congr (raiseAll_ev_congr (s := withoutFront rest more s) (t := s) rfl _) (tareAborted s.tare kept)

end Sys2Proof.Machine
end
